-- ==== Sys2Proof/Word.lean ====
section
/-! DEFINITION. The word types of DRX-ADP: 32-bit operand words, addresses, lengths and positions (R11 `AW`,
R57), and bytes. -/

namespace Sys2Proof

/-- A 32-bit word: an operand word, a HOST address, a length, a ring position or a result (R11, R57). -/
abbrev Word := BitVec 32

/-- A byte of HOST, RING or STG space (R71 to R73). -/
abbrev Byte := BitVec 8

end Sys2Proof
end

