-- ==== Sys2Proof/Machine/Converters.lean ====
section
/-! DEFINITION. The four format converters as pure functions of their input bytes (spec/41_converters.md R160 to
R176), unit by unit as R161 has a model define them. -/

namespace Sys2Proof.Machine

/-- `pack24_lsb(in, n)` (R162): bytes 0, 1, 2 of each 4-byte sample. -/
def pack24Lsb : Nat → List Byte → List Byte
  | n + 1, a :: b :: c :: _ :: rest => a :: b :: c :: pack24Lsb n rest
  | _, _ => []

/-- `pack24_msb(in, n)` (R163): bytes 1, 2, 3 of each 4-byte sample. -/
def pack24Msb : Nat → List Byte → List Byte
  | n + 1, _ :: b :: c :: d :: rest => b :: c :: d :: pack24Msb n rest
  | _, _ => []

/-- `up16to32(in, n)` (R164): two zero bytes, then the sample's low and high byte. -/
def up16to32 : Nat → List Byte → List Byte
  | n + 1, lo :: hi :: rest => 0 :: 0 :: lo :: hi :: up16to32 n rest
  | _, _ => []

/-- `NIBBLE_REV` (R55). -/
def nibbleRev : List (BitVec 4) := [0, 8, 4, 12, 2, 10, 6, 14, 1, 9, 5, 13, 3, 11, 7, 15]

/-- An entry of `NIBBLE_REV`. -/
def revNibble (x : BitVec 4) : BitVec 4 := nibbleRev.getD x.toNat 0

/-- `bitrev8(b)` (R168): both nibbles reversed through the table and swapped. -/
def bitrev8 (b : Byte) : Byte := revNibble (b.extractLsb' 0 4) ++ revNibble (b.extractLsb' 4 4)

/-- The byte swap of R169, chunk by chunk. -/
def swapChunks : List Byte → List Byte
  | a :: b :: c :: d :: rest => d :: c :: b :: a :: swapChunks rest
  | l => l

/-- `g` rounds of one 4-byte chunk from every channel's block, in channel order (R166). -/
def interleave : Nat → List (List Byte) → List Byte
  | 0, _ => []
  | g + 1, blocks => blocks.flatMap (fun b => b.take 4) ++ interleave g (blocks.map (fun b => b.drop 4))

/-- `dsd_interleave` of the channels' blocks (R166): the bit reversal before interleaving, the byte swap after it
(R167). -/
def dsdInterleave (blocks : List (List Byte)) (g : Nat) (rev swap : Bool) : List Byte :=
  let blocks := if rev then blocks.map (fun b => b.map bitrev8) else blocks
  let out := interleave g blocks
  if swap then swapChunks out else out

end Sys2Proof.Machine
end

