-- ==== Sys2Proof/Config.lean ====
section
/-! DEFINITION. The parameters of spec/00_scope.md: R10's constants, and R11's open parameters together with
R72's platform predicate as one record of plain data, which State carries and no step changes (log 3). -/

namespace Sys2Proof

/-- `STAGING_SIZE` of R10: bytes in each staging buffer. -/
def stagingSize : Nat := 65536

/-- `COPY_BLOCK` of R10: bytes of one main-loop block of the fixed-timing copy. -/
def copyBlock : Nat := 128

/-- `DSD_CHUNK` of R10: bytes of one channel's chunk. -/
def dsdChunk : Nat := 4

/-- `S24_DETECT_SAMPLES` of R10: samples examined by one push. -/
def s24DetectSamples : Nat := 32

/-- `S24_SILENCE_TIMEOUT` of R10: silent samples that end deferral, compared strictly (R224). -/
def s24SilenceTimeout : Nat := 48000

/-- The bytes of HOST space (R70): addresses are 32 bits wide. -/
def hostSize : Nat := 4294967296

/-- A range of HOST addresses: `len` bytes from `base`. -/
structure HostRange where
  base : Nat
  len  : Nat
deriving DecidableEq, Repr

/-- The open parameters of R11 and the platform predicate `host_admits` of R72 (log 3, log 4). -/
structure Config where
  /-- `LOG2_SIZE_MAX`: the largest ring is 2 to this power bytes. -/
  log2SizeMax : Nat
  /-- `DEBUG_OVERLAP_CHECK`: R144 has a model raise the fatal condition either way (log 9). -/
  debugOverlapCheck : Bool
  /-- `HAS_VEC512`: timing of COPYW only (R149). -/
  hasVec512 : Bool
  /-- `WIDE_THRESHOLD`: timing of COPYW only (R149). -/
  wideThreshold : Nat
  /-- `LANE_UNITS`: no result depends on it (R161). -/
  laneUnits : Nat
  /-- `CACHE_LINE`: placement only (R27, R87). -/
  cacheLine : Nat
  /-- `T_BLOCK`: latency of one block of the fixed-timing copy (R146). -/
  tBlock : Nat
  /-- `T_TAIL`: latencies of the tail buckets B64, B32, B16, B8, B4, B1, B0 (R146). -/
  tTail : List Nat
  /-- The HOST ranges the platform does not back: `host_admits` fails on a range that meets one. -/
  hostHoles : List HostRange
deriving DecidableEq, Repr

/-- R11: `LOG2_SIZE_MAX` must be at most 31. -/
def Config.wf (c : Config) : Bool := decide (c.log2SizeMax ≤ 31)

/-- DESIGN CHOICE (log 3, log 4): the values R11 suggests, every HOST byte backed, latencies 0. -/
def Config.suggested : Config :=
  { log2SizeMax := 30, debugOverlapCheck := true, hasVec512 := false, wideThreshold := 32768
    laneUnits := 1, cacheLine := 64, tBlock := 0, tTail := [], hostHoles := [] }

end Sys2Proof
end

