-- ==== Sys2Proof/Syntax.lean ====
section
/-! DEFINITION. The 22 commands of spec/30_encoding.md R114 as one inductive, with the operand types they use and
the raw 128-bit descriptor of R111. A decoded command is the pair (port, descriptor), so a command that several
ports may issue carries its port. -/

namespace Sys2Proof

/-- The three ports of R111: P producer, C consumer, K configuration. -/
inductive Port where
  | producer
  | consumer
  | config
deriving DecidableEq, Repr

/-- The two data ports, which hold Access Guards (R250). -/
inductive DataPort where
  | producer
  | consumer
deriving DecidableEq, Repr

/-- A data port as a port. -/
def DataPort.port : DataPort → Port
  | .producer => .producer
  | .consumer => .consumer

/-- The external S24 alignment hint of R31 and R227: none, LsbAligned, MsbAligned. -/
inductive S24Hint where
  | none
  | lsb
  | msb
deriving DecidableEq, Repr

/-- The registers of R60, which RDREG reads. -/
inductive RegNum where
  | size
  | mask
  | wp
  | rp
  | silence
  | s24Status
  | s24SilentCount
  | guardStatus
  | faultStatus
  | fmtRate
  | fmtChannels
  | fmtBytesIn
  | fmtBytesOut
  | fmtDsd
  | fmtPack24
  | fmtUp16to32
  | fmtDsdBitrev
  | fmtDsdBswap
  | fmtLowbitrate
  | fmtGen
deriving DecidableEq, Repr

/-- The names of the ten format fields of R45, each an atomic of its own. -/
inductive FmtField where
  | rate
  | channels
  | bytesIn
  | bytesOut
  | dsd
  | pack24
  | up16to32
  | dsdBitrev
  | dsdBswap
  | lowbitrate
deriving DecidableEq, Repr

/-- The ten format fields of R45: the operands of SETFMT (R112), and the registers that hold them. -/
structure Format where
  rate       : Word
  channels   : Byte
  bytesIn    : Byte
  bytesOut   : Byte
  dsd        : Bool
  pack24     : Bool
  up16to32   : Bool
  dsdBitrev  : Bool
  dsdBswap   : Bool
  lowbitrate : Bool
deriving DecidableEq, Repr

/-- A command descriptor: four 32-bit words (R111). -/
structure Descriptor where
  w0 : Word
  w1 : Word
  w2 : Word
  w3 : Word
deriving DecidableEq, Repr

/-- The commands of R114, one constructor per row of the opcode table. -/
inductive Instr where
  | copyf (port : Port) (dst src n : Word)
  | copyw (port : Port) (dst src n : Word)
  | push (src len : Word)
  | pop (dst len : Word)
  | wrgn (needed : Word)
  | wcommit (written : Word)
  | rrgn (needed : Word)
  | radv (bytes : Word)
  | avail (port : Port)
  | free (port : Port)
  | resize (capacity : Word) (silenceByte : Byte)
  | clear
  | push24 (src len : Word)
  | push16 (src len : Word)
  | pushdsd (src len : Word) (channels : Byte) (rev swap : Bool)
  | s24hint (port : Port) (hint : S24Hint)
  | genter (port : DataPort)
  | gexit (port : DataPort)
  | renter
  | rexit
  | setfmt (fmt : Format)
  | rdreg (port : Port) (reg : RegNum)
deriving DecidableEq, Repr

/-- The port a command is issued on. -/
def Instr.port : Instr → Port
  | .copyf p _ _ _ => p
  | .copyw p _ _ _ => p
  | .push _ _ => .producer
  | .pop _ _ => .consumer
  | .wrgn _ => .producer
  | .wcommit _ => .producer
  | .rrgn _ => .consumer
  | .radv _ => .consumer
  | .avail p => p
  | .free p => p
  | .resize _ _ => .config
  | .clear => .config
  | .push24 _ _ => .producer
  | .push16 _ _ => .producer
  | .pushdsd _ _ _ _ _ => .producer
  | .s24hint p _ => p
  | .genter p => p.port
  | .gexit p => p.port
  | .renter => .config
  | .rexit => .config
  | .setfmt _ => .config
  | .rdreg p _ => p

end Sys2Proof
end

