-- ==== Sys2Proof/WellFormed.lean ====
section
/-! DEFINITION. The operand checks that remain on a command once its fields have been read: R123's port list of
S24HINT and R124's reserved operand values. Everything else that R116 rejects cannot be written as an `Instr`. -/

namespace Sys2Proof

/-- A command whose port and operand values decoding accepts (R123, R124). -/
def Instr.wf (cfg : Config) : Instr → Bool
  | .copyf _ _ _ _ => true
  | .copyw _ _ _ _ => true
  | .push _ _ => true
  | .pop _ _ => true
  | .wrgn _ => true
  | .wcommit _ => true
  | .rrgn _ => true
  | .radv _ => true
  | .avail _ => true
  | .free _ => true
  | .resize capacity _ => decide (capacity.toNat ≤ 2 ^ cfg.log2SizeMax)
  | .clear => true
  | .push24 _ _ => true
  | .push16 _ _ => true
  | .pushdsd _ _ channels _ _ => decide (channels ≠ 0)
  | .s24hint port _ => decide (port ≠ .consumer)
  | .genter _ => true
  | .gexit _ => true
  | .renter => true
  | .rexit => true
  | .setfmt _ => true
  | .rdreg _ _ => true

end Sys2Proof
end

