-- ==== Sys2Proof/Decode.lean ====
section
/-! DEFINITION. Decoding and encoding of command descriptors: spec/30_encoding.md R111 to R125. `decode` is total
and rejects by name; all four rejections are answered ILLEGAL (R120, R285). -/

namespace Sys2Proof

/-- `OPC` = `W0[31:24]` (R111). -/
def Descriptor.opc (d : Descriptor) : Byte := d.w0.extractLsb' 24 8

/-- `MOD` = `W0[23:16]` (R111). -/
def Descriptor.mod (d : Descriptor) : Byte := d.w0.extractLsb' 16 8

/-- `IMMB` = `W0[15:8]` (R111). -/
def Descriptor.immb (d : Descriptor) : Byte := d.w0.extractLsb' 8 8

/-- `IMMA` = `W0[7:0]` (R111). -/
def Descriptor.imma (d : Descriptor) : Byte := d.w0.extractLsb' 0 8

/-- The mnemonics of R114. -/
inductive Mnemonic where
  | copyf | copyw | push | pop | wrgn | wcommit | rrgn | radv | avail | free | resize | clear
  | push24 | push16 | pushdsd | s24hint | genter | gexit | renter | rexit | setfmt | rdreg
deriving DecidableEq, Repr

/-- The 22 mnemonics in the order of R114. -/
def allMnemonics : List Mnemonic :=
  [.copyf, .copyw, .push, .pop, .wrgn, .wcommit, .rrgn, .radv, .avail, .free, .resize, .clear,
   .push24, .push16, .pushdsd, .s24hint, .genter, .gexit, .renter, .rexit, .setfmt, .rdreg]

/-- The opcode number of R114. -/
def Mnemonic.opcode : Mnemonic → Byte
  | .copyf => 0x10
  | .copyw => 0x11
  | .push => 0x20
  | .pop => 0x21
  | .wrgn => 0x22
  | .wcommit => 0x23
  | .rrgn => 0x24
  | .radv => 0x25
  | .avail => 0x26
  | .free => 0x27
  | .resize => 0x28
  | .clear => 0x29
  | .push24 => 0x30
  | .push16 => 0x31
  | .pushdsd => 0x32
  | .s24hint => 0x33
  | .genter => 0x40
  | .gexit => 0x41
  | .renter => 0x42
  | .rexit => 0x43
  | .setfmt => 0x44
  | .rdreg => 0x45

/-- The mnemonic an opcode selects; `OPC` alone selects it (R114, R121). -/
def mnemonicOf (opc : Byte) : Option Mnemonic := allMnemonics.find? (fun m => m.opcode = opc)

/-- The ports of R114 that accept the command (R123). -/
def Mnemonic.ports : Mnemonic → List Port
  | .copyf | .copyw | .avail | .free | .rdreg => [.producer, .consumer, .config]
  | .push | .wrgn | .wcommit | .push24 | .push16 | .pushdsd => [.producer]
  | .pop | .rrgn | .radv => [.consumer]
  | .resize | .clear | .renter | .rexit | .setfmt => [.config]
  | .s24hint => [.producer, .config]
  | .genter | .gexit => [.producer, .consumer]

/-- Which bits of each field a command uses: the operand shape of R111 and R112. `IMMB` is used by none. -/
structure Layout where
  mod  : Byte
  imma : Byte
  a    : Word
  b    : Word
  c    : Word
deriving DecidableEq, Repr

/-- The used bits of each command: R111's formats F0, FA, FAI, FAB, FABC, FI, FDSD and FFMT, with the narrower
fields of R112 and R122 (`S24HINT` uses `IMMA[1:0]` alone, `SETFMT` uses `B[23:0]`). -/
def Mnemonic.layout : Mnemonic → Layout
  | .avail | .free | .clear | .genter | .gexit | .renter | .rexit => ⟨0, 0, 0, 0, 0⟩
  | .wrgn | .wcommit | .rrgn | .radv => ⟨0, 0, 0xFFFFFFFF, 0, 0⟩
  | .resize => ⟨0, 0xFF, 0xFFFFFFFF, 0, 0⟩
  | .push | .pop | .push24 | .push16 => ⟨0, 0, 0xFFFFFFFF, 0xFFFFFFFF, 0⟩
  | .copyf | .copyw => ⟨0, 0, 0xFFFFFFFF, 0xFFFFFFFF, 0xFFFFFFFF⟩
  | .s24hint => ⟨0, 0x03, 0, 0, 0⟩
  | .rdreg => ⟨0, 0xFF, 0, 0, 0⟩
  | .pushdsd => ⟨0x03, 0xFF, 0xFFFFFFFF, 0xFFFFFFFF, 0⟩
  | .setfmt => ⟨0x3F, 0, 0xFFFFFFFF, 0x00FFFFFF, 0⟩

/-- R122: every bit outside the command's fields is 0. -/
def Descriptor.unusedZero (d : Descriptor) (l : Layout) : Bool :=
  decide (d.immb = 0) && decide (d.mod &&& ~~~l.mod = 0) && decide (d.imma &&& ~~~l.imma = 0)
    && decide (d.w1 &&& ~~~l.a = 0) && decide (d.w2 &&& ~~~l.b = 0) && decide (d.w3 &&& ~~~l.c = 0)

/-- The register number of R60. -/
def RegNum.code : RegNum → Byte
  | .size => 0x00
  | .mask => 0x01
  | .wp => 0x02
  | .rp => 0x03
  | .silence => 0x04
  | .s24Status => 0x05
  | .s24SilentCount => 0x06
  | .guardStatus => 0x07
  | .faultStatus => 0x08
  | .fmtRate => 0x10
  | .fmtChannels => 0x11
  | .fmtBytesIn => 0x12
  | .fmtBytesOut => 0x13
  | .fmtDsd => 0x14
  | .fmtPack24 => 0x15
  | .fmtUp16to32 => 0x16
  | .fmtDsdBitrev => 0x17
  | .fmtDsdBswap => 0x18
  | .fmtLowbitrate => 0x19
  | .fmtGen => 0x1A

/-- The registers in the order of R60. -/
def allRegNums : List RegNum :=
  [.size, .mask, .wp, .rp, .silence, .s24Status, .s24SilentCount, .guardStatus, .faultStatus, .fmtRate, .fmtChannels,
   .fmtBytesIn, .fmtBytesOut, .fmtDsd, .fmtPack24, .fmtUp16to32, .fmtDsdBitrev, .fmtDsdBswap, .fmtLowbitrate, .fmtGen]

/-- The register a number names; every other number is reserved (R60, R124). -/
def regNumOf (idx : Byte) : Option RegNum := allRegNums.find? (fun r => r.code = idx)

/-- The 2-bit code of a hint (R30, R31, R112). -/
def S24Hint.code : S24Hint → BitVec 2
  | .none => 0
  | .lsb => 1
  | .msb => 2

/-- The hint a 2-bit code names; 3 is reserved (R124). -/
def hintOf (b : BitVec 2) : Option S24Hint :=
  if b = 0 then some .none else if b = 1 then some .lsb else if b = 2 then some .msb else Option.none

/-- The data port of a port; K is none (R114). -/
def Port.data : Port → Option DataPort
  | .producer => some .producer
  | .consumer => some .consumer
  | .config => Option.none

/-- The ten format fields of a SETFMT descriptor (R112). -/
def Descriptor.format (d : Descriptor) : Format :=
  { rate := d.w1
    channels := d.w2.extractLsb' 0 8
    bytesIn := d.w2.extractLsb' 8 8
    bytesOut := d.w2.extractLsb' 16 8
    dsd := d.mod.getLsbD 0
    pack24 := d.mod.getLsbD 1
    up16to32 := d.mod.getLsbD 2
    dsdBitrev := d.mod.getLsbD 3
    dsdBswap := d.mod.getLsbD 4
    lowbitrate := d.mod.getLsbD 5 }

/-- Operand assembly (R112): the command with its operand values, none where one is reserved (R124). -/
def Mnemonic.assemble (m : Mnemonic) (cfg : Config) (p : Port) (d : Descriptor) : Option Instr :=
  match m with
  | .copyf => some (.copyf p d.w1 d.w2 d.w3)
  | .copyw => some (.copyw p d.w1 d.w2 d.w3)
  | .push => some (.push d.w1 d.w2)
  | .pop => some (.pop d.w1 d.w2)
  | .wrgn => some (.wrgn d.w1)
  | .wcommit => some (.wcommit d.w1)
  | .rrgn => some (.rrgn d.w1)
  | .radv => some (.radv d.w1)
  | .avail => some (.avail p)
  | .free => some (.free p)
  | .resize => if d.w1.toNat ≤ 2 ^ cfg.log2SizeMax then some (.resize d.w1 d.imma) else none
  | .clear => some .clear
  | .push24 => some (.push24 d.w1 d.w2)
  | .push16 => some (.push16 d.w1 d.w2)
  | .pushdsd => if d.imma = 0 then none else some (.pushdsd d.w1 d.w2 d.imma (d.mod.getLsbD 0) (d.mod.getLsbD 1))
  | .s24hint => (hintOf (d.imma.extractLsb' 0 2)).map (.s24hint p)
  | .genter => p.data.map .genter
  | .gexit => p.data.map .gexit
  | .renter => some .renter
  | .rexit => some .rexit
  | .setfmt => some (.setfmt d.format)
  | .rdreg => (regNumOf d.imma).map (.rdreg p)

/-- Why a descriptor is not a command of its port (R121 to R124). -/
inductive Illegal where
  /-- R121: the opcode is not in the opcode map. -/
  | reservedOpcode
  /-- R123: the port is not in the command's port list. -/
  | wrongPort
  /-- R122: a bit outside the command's fields is 1. -/
  | unusedNotZero
  /-- R124: an operand has a reserved value. -/
  | reservedOperand
deriving DecidableEq, Repr

/-- R116: decoding, a total function of the port and the four words, its checks in the order of R285. -/
def decode (cfg : Config) (p : Port) (d : Descriptor) : Except Illegal Instr :=
  match mnemonicOf d.opc with
  | none => .error .reservedOpcode
  | some m =>
    if p ∈ m.ports then
      if d.unusedZero m.layout then
        match m.assemble cfg p d with
        | none => .error .reservedOperand
        | some i => .ok i
      else .error .unusedNotZero
    else .error .wrongPort

/-- The mnemonic of a command (R114). -/
def Instr.mnemonic : Instr → Mnemonic
  | .copyf _ _ _ _ => .copyf
  | .copyw _ _ _ _ => .copyw
  | .push _ _ => .push
  | .pop _ _ => .pop
  | .wrgn _ => .wrgn
  | .wcommit _ => .wcommit
  | .rrgn _ => .rrgn
  | .radv _ => .radv
  | .avail _ => .avail
  | .free _ => .free
  | .resize _ _ => .resize
  | .clear => .clear
  | .push24 _ _ => .push24
  | .push16 _ _ => .push16
  | .pushdsd _ _ _ _ _ => .pushdsd
  | .s24hint _ _ => .s24hint
  | .genter _ => .genter
  | .gexit _ => .gexit
  | .renter => .renter
  | .rexit => .rexit
  | .setfmt _ => .setfmt
  | .rdreg _ _ => .rdreg

/-- Word `W0` from its four fields (R111). -/
def packW0 (opc mod immb imma : Byte) : Word := opc ++ mod ++ immb ++ imma

/-- A bit as a 1-bit field. -/
def bit (b : Bool) : BitVec 1 := BitVec.ofBool b

/-- `MOD` of a SETFMT (R112): bits 0 to 5 are the six flags, bits 7:6 are 0. -/
def Format.flags (f : Format) : Byte :=
  (0 : BitVec 2) ++ bit f.lowbitrate ++ bit f.dsdBswap ++ bit f.dsdBitrev ++ bit f.up16to32 ++ bit f.pack24 ++ bit f.dsd

/-- The descriptor of a command: R111's fields filled as R112 assembles them, every unused bit 0 (R122). -/
def encode (i : Instr) : Descriptor :=
  let op := i.mnemonic.opcode
  match i with
  | .copyf _ dst src n => ⟨packW0 op 0 0 0, dst, src, n⟩
  | .copyw _ dst src n => ⟨packW0 op 0 0 0, dst, src, n⟩
  | .push src len => ⟨packW0 op 0 0 0, src, len, 0⟩
  | .pop dst len => ⟨packW0 op 0 0 0, dst, len, 0⟩
  | .wrgn needed => ⟨packW0 op 0 0 0, needed, 0, 0⟩
  | .wcommit written => ⟨packW0 op 0 0 0, written, 0, 0⟩
  | .rrgn needed => ⟨packW0 op 0 0 0, needed, 0, 0⟩
  | .radv bytes => ⟨packW0 op 0 0 0, bytes, 0, 0⟩
  | .avail _ => ⟨packW0 op 0 0 0, 0, 0, 0⟩
  | .free _ => ⟨packW0 op 0 0 0, 0, 0, 0⟩
  | .resize capacity silenceByte => ⟨packW0 op 0 0 silenceByte, capacity, 0, 0⟩
  | .clear => ⟨packW0 op 0 0 0, 0, 0, 0⟩
  | .push24 src len => ⟨packW0 op 0 0 0, src, len, 0⟩
  | .push16 src len => ⟨packW0 op 0 0 0, src, len, 0⟩
  | .pushdsd src len channels rev swap =>
    ⟨packW0 op ((0 : BitVec 6) ++ bit swap ++ bit rev) 0 channels, src, len, 0⟩
  | .s24hint _ hint => ⟨packW0 op 0 0 ((0 : BitVec 6) ++ hint.code), 0, 0, 0⟩
  | .genter _ => ⟨packW0 op 0 0 0, 0, 0, 0⟩
  | .gexit _ => ⟨packW0 op 0 0 0, 0, 0, 0⟩
  | .renter => ⟨packW0 op 0 0 0, 0, 0, 0⟩
  | .rexit => ⟨packW0 op 0 0 0, 0, 0, 0⟩
  | .setfmt f => ⟨packW0 op f.flags 0 0, f.rate, (0 : Byte) ++ f.bytesOut ++ f.bytesIn ++ f.channels, 0⟩
  | .rdreg _ reg => ⟨packW0 op 0 0 reg.code, 0, 0, 0⟩

/-- R84: one word from its four bytes, little-endian, from byte number `i` of the serialised descriptor. -/
def wordLE (bytes : List Byte) (i : Nat) : Word :=
  bytes.getD (i + 3) 0 ++ bytes.getD (i + 2) 0 ++ bytes.getD (i + 1) 0 ++ bytes.getD i 0

/-- R84: a descriptor from its 16 bytes, word 0 first. -/
def Descriptor.ofBytes (bytes : List Byte) : Descriptor :=
  ⟨wordLE bytes 0, wordLE bytes 4, wordLE bytes 8, wordLE bytes 12⟩

/-- The 16 bytes of the descriptor whose lowest `nbits` bits are those of `w`, every bit above them 0: bit 0 is the
least significant bit of word 0, and byte `i` is bits `8i+7 .. 8i` (R84). -/
def descriptorBytes (nbits w : Nat) : List Byte :=
  (List.range 16).map (fun i => BitVec.ofNat 8 ((w % 2 ^ nbits) / 2 ^ (8 * i)))

/-- The port the model presents a bare descriptor on: the first of K, P, C that accepts it. The opcode table gives
a row's words and no port (log 25). -/
def portFor (cfg : Config) (d : Descriptor) : Port :=
  match [Port.config, .producer, .consumer].find? (fun p => (decode cfg p d).isOk) with
  | some p => p
  | none => .config

/-- The instruction the decoder reads from the low `nbits` bits of `w`, laid out as R84 stores a descriptor. -/
def decodeTableWord (nbits w : Nat) : Option Instr :=
  let d := Descriptor.ofBytes (descriptorBytes nbits w)
  (decode Config.suggested (portFor Config.suggested d) d).toOption

end Sys2Proof
end

