-- ==== Sys2Proof/Machine/Operands.lean ====
section
/-! DEFINITION. The pure arithmetic the commands share: occupancy (spec/10_state.md R25), `clog2` (spec/00_scope.md
R12), the work bound of the converters (spec/41_converters.md R172) and the overlap of two ranges (spec/40_copy.md
R143). -/

namespace Sys2Proof.Machine

/-- `clog2(c)` of R12: the least k with `2^k ≥ c`; a 32-bit operand needs no k above 32. -/
def clog2 (c : Nat) : Nat := ((List.range 33).find? (fun k => decide (c ≤ 2 ^ k))).getD 32

/-- `avail(w, r)` of R25: occupied bytes, the difference of the positions under the mask. -/
def availAt (mask w r : Word) : Word := (w - r) &&& mask

/-- `free(w, r)` of R25: free bytes, one slot being reserved. -/
def freeAt (mask w r : Word) : Word := (r - w - 1) &&& mask

/-- A position moved on by `n` bytes, reduced modulo SIZE (R23, R24, D18). -/
def advancePos (mask pos : Word) (n : Nat) : Word := (pos + BitVec.ofNat 32 n) &&& mask

/-- `bound(len, uin, uout, fr)` of R172, in whole units. -/
def bound (len uin uout fr : Nat) : Nat := min (len / uin) (min (stagingSize / uout) (fr / uout))

/-- Two ranges of one space share a byte; an empty range shares none (R143). -/
def rangesMeet (a b : HostRange) : Bool :=
  decide (0 < a.len) && decide (0 < b.len) && decide (a.base < b.base + b.len) && decide (b.base < a.base + a.len)

/-- `overlap(dst, src, n)` of R143. -/
def overlap (dst src n : Word) : Bool := rangesMeet ⟨dst.toNat, n.toNat⟩ ⟨src.toNat, n.toNat⟩

/-- The range of `n` bytes at a HOST address. -/
def rangeAt (addr : Word) (n : Nat) : HostRange := ⟨addr.toNat, n⟩

end Sys2Proof.Machine
end

