-- ==== Sys2Proof/Machine/State.lean ====
section
/-! DEFINITION. The whole state of DRX-ADP (spec/10_state.md R20) as plain data, HOST memory beside it (R72), the
commands in flight between their labelled steps (R15), and what the agents have given the block. Reset is R62. -/

namespace Sys2Proof.Machine

/-- Byte storage: (address, byte) pairs, addresses strictly rising, no byte equal to what an unlisted address of the
space reads as. -/
abbrev Memory := List Host.Cell

/-- `S24_MODE` of R30. -/
inductive S24Mode where
  | unknown
  | lsbAligned
  | msbAligned
  | deferred
deriving DecidableEq, Repr

/-- `PHASE[P]` and `PHASE[C]` of R52. -/
inductive DataPhase where
  | idle
  | guarded
  | region
deriving DecidableEq, Repr

/-- `PHASE[K]` of R52. -/
inductive ConfigPhase where
  | idle
  | waiting
  | excl
deriving DecidableEq, Repr

/-- An open zero-copy region of R53: ring offsets `base` to `base + len - 1`. -/
structure Region where
  base : Word
  len  : Nat
deriving DecidableEq, Repr

/-- The response status `ST` of R113. -/
inductive Status where
  | done
  | noregion
  | inactive
  | illegal
  | fatal
deriving DecidableEq, Repr

/-- A response of R113. -/
structure Response where
  st : Status
  v0 : Word
  v1 : Word
deriving DecidableEq, Repr

/-- The next labelled step (R15) of a command in flight, with the values its finished steps have read. `pos` is the
own position a command read at s1 and `n` its count: bytes for PUSH and POP, units for a converting push. -/
inductive Stage where
  /-- s2 of PUSH, POP, PUSH24, PUSH16, PUSHDSD (R184, R186, R221, R230, R236). -/
  | move (pos : Word) (n : Nat)
  /-- s3 of a converting push: staging buffer to ring (R221, R230, R236). -/
  | transfer (pos : Word) (n : Nat)
  /-- The release store and the response: s3 of PUSH and POP, s4 of a converting push. -/
  | publish (pos : Word) (n : Nat)
  /-- s2 of COPYF and COPYW (R145, R148). -/
  | copyMove
  /-- s3 of COPYF and COPYW. -/
  | copyDone
  /-- g2 of GENTER (R251). -/
  | g2
  /-- g3 of GENTER: the re-check. -/
  | g3
  /-- g4 of GENTER, `f` being what g3 read. -/
  | g4 (f : Bool)
  /-- r2 of RENTER: the wait (R256, R258). -/
  | r2
  /-- SETFMT (R262): the field stores of s1 still to come; none left: s2. -/
  | fmtStore (pending : List FmtField)
deriving DecidableEq, Repr

/-- A command in flight: issued, not yet answered. -/
structure Command where
  instr : Instr
  stage : Stage
deriving DecidableEq, Repr

/-- One port (R290): the descriptors its agent will issue, the command in flight, the last response given. -/
structure Lane where
  stream   : List Descriptor
  inflight : Option Command
  resp     : Option Response
deriving DecidableEq, Repr

/-- What the outside world does next (the schedule's entries; log 1). -/
inductive Event where
  /-- The port makes its next step; `choice` picks among steps the spec leaves in any order (R262). -/
  | turn (port : Port) (choice : Nat)
  /-- The producer writes through its ring window (R190). -/
  | winWrite (off : Word) (bytes : List Byte)
  /-- The consumer reads through its ring window (R194). -/
  | winRead (off n : Word)
  /-- An agent stores into its own HOST memory (R72). -/
  | hostStore (addr : Word) (bytes : List Byte)
  /-- Reset (R311); `landed` lists the HOST addresses that abandoned commands had already written (U21). -/
  | reset (landed : List Nat)
deriving DecidableEq, Repr

/-- The reasons the model stops where the spec names storage that does not exist. -/
inductive Fault where
  /-- Raised by the ring primitives for a range that passes SIZE (R14, R22: there is no such offset). Safe: no run
  from reset raises it, and hardware has no such access. -/
  | ringRange
  /-- Raised by the staging primitives for a range that passes 65536 (R14, R73). Safe: no run from reset raises it. -/
  | stagingRange
deriving DecidableEq, Repr

/-- The reasons the model gives no step. All but the first are the spec's own `refuse` (R14, R320). -/
inductive Refusal where
  /-- Raised by `exec` for an instruction without a meaning: none is left. Safe. -/
  | notModelled (mnemonic : String)
  /-- A data port's ring command, hint or snapshot outside an active Access Guard (R321, U2). Safe: hardware goes on
  unpredictably, and nothing can be proved of it. -/
  | noActiveGuard
  /-- RESIZE, CLEAR, SETFMT, REXIT or K's S24HINT without exclusive ownership (R322, U3). Safe, as above. -/
  | notExclusive
  /-- A ring command other than the commit, or GEXIT, while the port's region is open (R323, R324, U4). Safe, as above. -/
  | regionOpen
  /-- WCOMMIT or RADV with no region open (R189, R193, D51). Safe, as above. -/
  | noRegionOpen
  /-- WCOMMIT or RADV of more than was granted (R189, R193, R325, U5). Safe, as above. -/
  | grantExceeded
  /-- WCOMMIT of a byte that was not written through the window since WRGN (R325, U5; log 11). Safe, as above. -/
  | bytesNotWritten
  /-- A window access outside the open region or with none open (R190, R194, R326, U7). Safe, as above. -/
  | windowOutside
  /-- RENTER while a reconfiguration is in progress (R256, R333, U12). Safe, as above. -/
  | reconfigBusy
  /-- GENTER inside an Access Guard (R251, R333, U14). Safe, as above. -/
  | nestedGuard
  /-- A HOST access that passes address 2^32 (R72, U9). Safe, as above. -/
  | hostPastTop
  /-- A HOST access to a range the platform does not admit (R72, D30, U10). Safe, as above. -/
  | hostNotAdmitted
  /-- A HOST access that meets a range of another port's command in flight, one of the two writing (R98, R329, U15).
  Safe, as above. -/
  | hostRace
  /-- `exec` asked for a command on a port that is in the middle of another one (R52, R290: one command at a time).
  Safe: `step` never asks it. -/
  | portBusy
deriving DecidableEq, Repr

/-- The state: R20's elements, then HOST memory, the ports, and the model's own fields (logs 1, 2, 3, 11, 13, 14, 15). -/
structure State where
  /-- R11 and R72: the parameters; no step writes them. -/
  cfg : Config
  /-- `SIZE_LOG2` (R21). -/
  sizeLog2 : BitVec 6
  /-- `RING` (R22); an unlisted offset reads as `SILENCE` (log 7). -/
  ring : Memory
  /-- `WP` (R23). -/
  wp : Word
  /-- `RP` (R24). -/
  rp : Word
  /-- `SILENCE` (R26). -/
  silence : Byte
  /-- `STG[0]` (R28), PUSH24's. -/
  stg0 : Memory
  /-- `STG[1]` (R28), PUSH16's. -/
  stg1 : Memory
  /-- `STG[2]` (R28), PUSHDSD's. -/
  stg2 : Memory
  /-- `S24_MODE` (R30). -/
  s24Mode : S24Mode
  /-- `S24_HINT` (R31). -/
  s24Hint : S24Hint
  /-- `S24_CONFIRMED` (R32). -/
  s24Confirmed : Bool
  /-- `S24_SILENT_COUNT` (R33). -/
  s24SilentCount : BitVec 32
  /-- `RECONFIG` (R40). -/
  reconfig : Bool
  /-- `ACTIVE_USERS` (R41). -/
  activeUsers : BitVec 8
  /-- `REG[P]` (R42). -/
  regP : Bool
  /-- `REG[C]` (R42). -/
  regC : Bool
  /-- The ten format fields (R45). -/
  fmt : Format
  /-- `FMT_GEN` (R46), a natural number as R46 lets a model (log 12). -/
  fmtGen : Nat
  /-- `FATAL` (R50). -/
  fatal : Bool
  /-- `FATAL_CODE` (R50). -/
  fatalCode : BitVec 8
  /-- `PHASE[P]` (R52). -/
  phaseP : DataPhase
  /-- `PHASE[C]` (R52). -/
  phaseC : DataPhase
  /-- `PHASE[K]` (R52). -/
  phaseK : ConfigPhase
  /-- `WREGION` (R53). -/
  wregion : Option Region
  /-- `RREGION` (R53). -/
  rregion : Option Region
  /-- The ring offsets the producer has written through its window since WRGN, rising: the model's own record, by which
  a commit of bytes never written is told (R325, log 11). -/
  winWritten : List Nat
  /-- HOST space (R70, R72). -/
  host : Memory
  /-- Port P. -/
  laneP : Lane
  /-- Port C. -/
  laneC : Lane
  /-- Port K. -/
  laneK : Lane
  /-- The bytes the last consumer window read returned (R194). -/
  window : List Byte
  /-- The choice the current turn makes among steps in any order (R262). -/
  choice : Nat
  /-- What happens next, in order. -/
  schedule : List Event
deriving DecidableEq, Repr

/-- The outcome of one step of this machine. -/
abbrev Result := Host.Outcome State Fault Refusal

/-- A port on which nothing has been issued. -/
def Lane.empty : Lane := { stream := [], inflight := none, resp := none }

/-- The format fields at reset (R62: all ten are 0). -/
def resetFormat : Format :=
  { rate := 0, channels := 0, bytesIn := 0, bytesOut := 0, dsd := false, pack24 := false, up16to32 := false
    dsdBitrev := false, dsdBswap := false, lowbitrate := false }

/-- The machine right after reset: R62's value for every element, HOST memory with nothing listed, nothing issued. -/
def State.reset : State :=
  { cfg := Config.suggested
    sizeLog2 := 0, ring := [], wp := 0, rp := 0, silence := 0x00
    stg0 := [], stg1 := [], stg2 := []
    s24Mode := .unknown, s24Hint := .none, s24Confirmed := false, s24SilentCount := 0
    reconfig := false, activeUsers := 0, regP := false, regC := false
    fmt := resetFormat, fmtGen := 0
    fatal := false, fatalCode := 0
    phaseP := .idle, phaseC := .idle, phaseK := .idle
    wregion := none, rregion := none, winWritten := []
    host := []
    laneP := Lane.empty, laneC := Lane.empty, laneK := Lane.empty
    window := [], choice := 0, schedule := [] }

end Sys2Proof.Machine
end

