-- ==== Sys2Proof/Machine/Ops.lean ====
section
/-! DEFINITION. The named operations every meaning is written over: byte storage in its canonical form, the
primitives of spec/00_scope.md R14 over HOST, RING and STG, the ports (response, labelled steps), the HOST access
conditions (R72, R98), the fatal condition (spec/60_exceptions.md R283) and the reset that alone ends it (R284,
spec/70_reset_and_hazards.md R310). -/

namespace Sys2Proof.Machine

/-! Byte storage. `d` is what an unlisted address reads as. -/

/-- The byte at address `a`. -/
def memGet (d : Byte) : Memory → Nat → Byte
  | [], _ => d
  | c :: cs, a => if c.1 = a then c.2 else memGet d cs a

/-- The `n` bytes from address `a`. -/
def memRead (d : Byte) (m : Memory) : Nat → Nat → List Byte
  | _, 0 => []
  | a, n + 1 => memGet d m a :: memRead d m (a + 1) n

/-- The entries that list `bytes` from address `a`: none for a byte equal to `d`. -/
def memCells (d : Byte) : Nat → List Byte → Memory
  | _, [] => []
  | a, b :: bs => if b = d then memCells d (a + 1) bs else (a, b) :: memCells d (a + 1) bs

/-- Storage with `bytes` written from address `a`. -/
def memWrite (d : Byte) (m : Memory) (a : Nat) (bytes : List Byte) : Memory :=
  m.filter (fun c => decide (c.1 < a)) ++ memCells d a bytes ++ m.filter (fun c => decide (a + bytes.length ≤ c.1))

/-- The canonical form: addresses strictly rising and below `limit`, no entry equal to `d`. -/
def Memory.wf (d : Byte) (limit : Nat) (m : Memory) : Bool :=
  decide (m.Pairwise (fun x y => x.1 < y.1)) && m.all (fun c => decide (c.1 < limit) && decide (c.2 ≠ d))

/-- DESIGN CHOICE (log 5): what a HOST byte reads as that nothing has written. -/
def hostFill : Byte := 0x00

/-- DESIGN CHOICE (log 6): what a staging byte reads as that nothing has written; no command returns one (R28). -/
def stagingFill : Byte := 0x00

/-! Ring storage (R21, R22). -/

/-- `SIZE` (R21). -/
def State.size (s : State) : Nat := 2 ^ s.sizeLog2.toNat

/-- `MASK` = `SIZE - 1` (R21). -/
def State.mask (s : State) : Word := BitVec.ofNat 32 (s.size - 1)

/-- One byte of `RING`. -/
def State.ringByte (s : State) (off : Nat) : Byte := memGet s.silence s.ring off

/-- One byte of HOST space. -/
def State.hostByte (s : State) (addr : Nat) : Byte := memGet hostFill s.host addr

/-- `avail` of the current positions (R25). -/
def State.avail (s : State) : Word := availAt s.mask s.wp s.rp

/-- `free` of the current positions (R25). -/
def State.free (s : State) : Word := freeAt s.mask s.wp s.rp

/-- `RingRead(off, n)` (R14): the range must not pass SIZE. -/
def State.ringRead (s : State) (off n : Nat) : Option (List Byte) :=
  if off + n ≤ s.size then some (memRead s.silence s.ring off n) else none

/-- `RingWrite(off, n, v)` (R14): the range must not pass SIZE. -/
def State.ringWrite (s : State) (off : Nat) (v : List Byte) : Option State :=
  if off + v.length ≤ s.size then some { s with ring := memWrite s.silence s.ring off v } else none

/-- `ring_put(w, v)` (R181): at most two segments, split at the end of the storage. -/
def State.ringPut (s : State) (w : Word) (v : List Byte) : Option State :=
  let first := min v.length (s.size - w.toNat)
  match s.ringWrite w.toNat (v.take first) with
  | none => none
  | some s1 => if first < v.length then s1.ringWrite 0 (v.drop first) else some s1

/-- `ring_get(r, n)` (R181). -/
def State.ringGet (s : State) (r : Word) (n : Nat) : Option (List Byte) :=
  let first := min n (s.size - r.toNat)
  match s.ringRead r.toNat first with
  | none => none
  | some v => if first < n then (s.ringRead 0 (n - first)).map (v ++ ·) else some v

/-! The record of the producer's window writes (R325, log 11). -/

/-- The record with the `n` offsets from `off` added, still rising. -/
def addOffsets (l : List Nat) (off n : Nat) : List Nat :=
  l.filter (fun o => decide (o < off)) ++ List.range' off n ++ l.filter (fun o => decide (off + n ≤ o))

/-- The `n` offsets from `off` are all in the record. -/
def allWritten (l : List Nat) (off n : Nat) : Bool := decide (∀ k < n, off + k ∈ l)

/-! Staging buffers (R28): 0 PUSH24's, 1 PUSH16's, 2 PUSHDSD's. -/

/-- The three staging buffers of R28. -/
inductive StgBuf where
  | pack24
  | up16
  | dsd
deriving DecidableEq, Repr

/-- The storage of a staging buffer. -/
def State.stg (s : State) : StgBuf → Memory
  | .pack24 => s.stg0
  | .up16 => s.stg1
  | .dsd => s.stg2

/-- The state with a staging buffer's storage replaced. -/
def State.setStg (s : State) (j : StgBuf) (m : Memory) : State :=
  match j with
  | .pack24 => { s with stg0 := m }
  | .up16 => { s with stg1 := m }
  | .dsd => { s with stg2 := m }

/-- One byte of a staging buffer. -/
def State.stgByte (s : State) (j : StgBuf) (off : Nat) : Byte := memGet stagingFill (s.stg j) off

/-- `StgRead(j, off, n)` (R14). -/
def State.stgRead (s : State) (j : StgBuf) (off n : Nat) : Option (List Byte) :=
  if off + n ≤ stagingSize then some (memRead stagingFill (s.stg j) off n) else none

/-- `StgWrite(j, off, n, v)` (R14). -/
def State.stgWrite (s : State) (j : StgBuf) (off : Nat) (v : List Byte) : Option State :=
  if off + v.length ≤ stagingSize then some (s.setStg j (memWrite stagingFill (s.stg j) off v)) else none

/-! Ports. -/

/-- A port's lane. -/
def State.lane (s : State) : Port → Lane
  | .producer => s.laneP
  | .consumer => s.laneC
  | .config => s.laneK

/-- The state with a port's lane replaced. -/
def State.setLane (s : State) (p : Port) (l : Lane) : State :=
  match p with
  | .producer => { s with laneP := l }
  | .consumer => { s with laneC := l }
  | .config => { s with laneK := l }

/-- `PHASE[P]` or `PHASE[C]` (R52). -/
def State.phase (s : State) : DataPort → DataPhase
  | .producer => s.phaseP
  | .consumer => s.phaseC

/-- `REG[P]` or `REG[C]` (R42). -/
def State.reg (s : State) : DataPort → Bool
  | .producer => s.regP
  | .consumer => s.regC

/-- The state with a data port's `REG` bit and `PHASE` set: `REG[p] <- b; phase[p] <- f`. -/
def State.setGuard (s : State) (p : DataPort) (b : Bool) (f : DataPhase) : State :=
  match p with
  | .producer => { s with regP := b, phaseP := f }
  | .consumer => { s with regC := b, phaseC := f }

/-- `atomic_add(ACTIVE_USERS, +1)` (R95). -/
def State.incUsers (s : State) : State := { s with activeUsers := s.activeUsers + 1 }

/-- `atomic_add(ACTIVE_USERS, -1)` (R95). -/
def State.decUsers (s : State) : State := { s with activeUsers := s.activeUsers - 1 }

/-- Where a command stands on its port: not issued there yet, at a labelled step, or the port is in the middle of
another command. -/
inductive Progress where
  | fresh
  | at (stage : Stage)
  | other
deriving DecidableEq, Repr

/-- Where a command stands on its port (R15). -/
def State.progress (s : State) (i : Instr) : Progress :=
  match (s.lane i.port).inflight with
  | none => .fresh
  | some c => if c.instr = i then .at c.stage else .other

/-- The command goes on to a further labelled step (R15). -/
def State.goTo (s : State) (i : Instr) (st : Stage) : State :=
  s.setLane i.port { s.lane i.port with inflight := some { instr := i, stage := st } }

/-- `resp <- r`: the command completes with its one response (R14, R113). -/
def State.finish (s : State) (p : Port) (r : Response) : State :=
  s.setLane p { s.lane p with inflight := none, resp := some r }

/-- `resp <- (DONE, v0, v1)`. -/
def done (v0 v1 : Word) : Response := { st := .done, v0 := v0, v1 := v1 }

/-- The response to an illegal descriptor (R120). -/
def illegalResponse : Response := { st := .illegal, v0 := 0, v1 := 0 }

/-! The fatal condition: the block's one exception. There is no return from it but reset (R284). -/

/-- `COPY_OVERLAP`'s code (R281). -/
def copyOverlapCode : BitVec 8 := 1

/-- The response while the latch is set (R283): `V0` is the code. -/
def fatalResponse (code : BitVec 8) : Response := { st := .fatal, v0 := code.setWidth 32, v1 := 0 }

/-- `raise Fatal(code)` on port `p` (R283): the latch and its code are set, the raising command is answered and makes
no further step; nothing else changes. -/
def State.raiseFatal (s : State) (p : Port) (code : BitVec 8) : State :=
  { s with fatal := true, fatalCode := code }.finish p (fatalResponse code)

/-! HOST accesses (R72, R98, R329). -/

/-- Blocks of the planar input of PUSHDSD: the first `n` bytes of each of `channels` blocks at stride `stride`
(R166, R236). -/
def planarRanges (src : Word) (stride n channels : Nat) : List HostRange :=
  (List.range channels).map (fun c => ⟨src.toNat + c * stride, n⟩)

/-- The HOST ranges a command in flight reads: those its count gives it, from its first step to its response (R98). -/
def Command.hostReads (c : Command) : List HostRange :=
  match c.instr, c.stage with
  | .copyf _ _ src n, _ => [rangeAt src n.toNat]
  | .copyw _ _ src n, _ => [rangeAt src n.toNat]
  | .push src _, .move _ n => [rangeAt src n]
  | .push src _, .publish _ n => [rangeAt src n]
  | .push24 src _, .move _ n => [rangeAt src (4 * n)]
  | .push24 src _, .transfer _ n => [rangeAt src (4 * n)]
  | .push24 src _, .publish _ n => [rangeAt src (4 * n)]
  | .push16 src _, .move _ n => [rangeAt src (2 * n)]
  | .push16 src _, .transfer _ n => [rangeAt src (2 * n)]
  | .push16 src _, .publish _ n => [rangeAt src (2 * n)]
  | .pushdsd src len ch _ _, .move _ g => planarRanges src (len.toNat / ch.toNat) (4 * g) ch.toNat
  | .pushdsd src len ch _ _, .transfer _ g => planarRanges src (len.toNat / ch.toNat) (4 * g) ch.toNat
  | .pushdsd src len ch _ _, .publish _ g => planarRanges src (len.toNat / ch.toNat) (4 * g) ch.toNat
  | _, _ => []

/-- The HOST ranges a command in flight writes (R98). -/
def Command.hostWrites (c : Command) : List HostRange :=
  match c.instr, c.stage with
  | .copyf _ dst _ n, _ => [rangeAt dst n.toNat]
  | .copyw _ dst _ n, _ => [rangeAt dst n.toNat]
  | .pop dst _, .move _ n => [rangeAt dst n]
  | .pop dst _, .publish _ n => [rangeAt dst n]
  | _, _ => []

/-- Some range of one list meets some range of the other. -/
def anyMeet (xs ys : List HostRange) : Bool := xs.any (fun x => ys.any (fun y => rangesMeet x y))

/-- An access that reads `reads` and writes `writes` breaks R329 against a command in flight. -/
def raceWith (reads writes : List HostRange) (c : Option Command) : Bool :=
  match c with
  | none => false
  | some c => anyMeet writes (c.hostReads ++ c.hostWrites) || anyMeet reads c.hostWrites

/-- An access by port `p` breaks R329 against another port's command in flight. -/
def State.hostRaces (s : State) (p : Port) (reads writes : List HostRange) : Bool :=
  ([Port.producer, .consumer, .config].filter (fun q => decide (q ≠ p))).any
    (fun q => raceWith reads writes (s.lane q).inflight)

/-- Every range ends at or below 2^32 (R72). -/
def rangesInHost (rs : List HostRange) : Bool := rs.all (fun r => decide (r.base + r.len ≤ hostSize))

/-- `host_admits` (R72, log 4): no range meets a hole of the platform. -/
def Config.admits (cfg : Config) (rs : List HostRange) : Bool := !anyMeet rs cfg.hostHoles

/-- Why a HOST access of port `p` is given no step, if it is (R72, R329). -/
def State.hostRefusal (s : State) (p : Port) (reads writes : List HostRange) : Option Refusal :=
  if rangesInHost (reads ++ writes) = false then some .hostPastTop
  else if Config.admits s.cfg (reads ++ writes) = false then some .hostNotAdmitted
  else if s.hostRaces p reads writes then some .hostRace
  else none

/-- `MemRead(addr, n)` (R14). -/
def State.memReadHost (s : State) (addr n : Nat) : List Byte := memRead hostFill s.host addr n

/-- `MemWrite(addr, n, v)` (R14). -/
def State.memWriteHost (s : State) (addr : Nat) (v : List Byte) : State :=
  { s with host := memWrite hostFill s.host addr v }

/-! What a command requires of its port (R292). -/

/-- The refusal of a data port's command that requires GUARDED (R321, R323). -/
def needGuarded (f : DataPhase) : Option Refusal :=
  match f with
  | .idle => some .noActiveGuard
  | .guarded => none
  | .region => some .regionOpen

/-- The refusal of a commit or advance outside REGION (R189, R193, R321). -/
def needRegion (f : DataPhase) : Option Refusal :=
  match f with
  | .idle => some .noActiveGuard
  | .guarded => some .noRegionOpen
  | .region => none

/-- The refusal of K's command outside exclusive ownership (R322). -/
def needExcl (f : ConfigPhase) : Option Refusal :=
  match f with
  | .idle => some .notExclusive
  | .waiting => some .notExclusive
  | .excl => none

/-- The refusal of a snapshot (R196): a data port must hold an active guard, K may be in any phase. -/
def State.needSnapshot (s : State) (p : Port) : Option Refusal :=
  match p with
  | .producer => if s.phaseP = .idle then some .noActiveGuard else none
  | .consumer => if s.phaseC = .idle then some .noActiveGuard else none
  | .config => none

/-! The S24 state (R35) and the ring's new start, shared by RESIZE and CLEAR. -/

/-- `s24_reset()` (R35). -/
def State.s24Reset (s : State) : State :=
  { s with s24Mode := .unknown, s24Hint := .none, s24Confirmed := false, s24SilentCount := 0 }

/-- The storage filled with the silence byte and both positions 0 (R182, R183): with nothing listed, every offset
reads as `SILENCE`. -/
def State.emptyRing (s : State) : State := { s with ring := [], wp := 0, rp := 0 }

/-! Reset (R310, R311). -/

/-- The HOST bytes a command in flight would write at its next step, and where; none if that step writes none or is
given no step. -/
def State.pendingHostWrite (s : State) (c : Command) : Option (Nat × List Byte) :=
  match c.instr, c.stage with
  | .copyf p dst src n, .copyMove =>
    if (s.hostRefusal p [rangeAt src n.toNat] [rangeAt dst n.toNat]).isNone then
      some (dst.toNat, s.memReadHost src.toNat n.toNat) else none
  | .copyw p dst src n, .copyMove =>
    if (s.hostRefusal p [rangeAt src n.toNat] [rangeAt dst n.toNat]).isNone then
      some (dst.toNat, s.memReadHost src.toNat n.toNat) else none
  | .pop dst _, .move r n =>
    if (s.hostRefusal .consumer [] [rangeAt dst n]).isNone then (s.ringGet r n).map (dst.toNat, ·) else none
  | _, _ => none

/-- HOST storage with those of `bytes` from address `a` written whose address is in `landed`. -/
def landBytes (landed : List Nat) : Nat → List Byte → Memory → Memory
  | _, [], m => m
  | a, b :: bs, m => landBytes landed (a + 1) bs (if a ∈ landed then memWrite hostFill m a [b] else m)

/-- HOST storage after the port's abandoned command has left its bytes partly written (R311, U21). -/
def State.landTorn (s : State) (landed : List Nat) (p : Port) (m : Memory) : Memory :=
  match (s.lane p).inflight with
  | none => m
  | some c =>
    match s.pendingHostWrite c with
    | none => m
    | some (a, v) => landBytes landed a v m

/-- Reset (R310, R311): every state element takes its reset value and commands in flight are abandoned without a
response. HOST memory, the parameters and what the agents will do next are not the block's and stay (log 16). -/
def State.blockReset (s : State) (landed : List Nat) : State :=
  { State.reset with
    cfg := s.cfg
    host := s.landTorn landed .producer (s.landTorn landed .consumer (s.landTorn landed .config s.host))
    laneP := { Lane.empty with stream := s.laneP.stream }
    laneC := { Lane.empty with stream := s.laneC.stream }
    laneK := { Lane.empty with stream := s.laneK.stream }
    schedule := s.schedule }

end Sys2Proof.Machine
end

