-- ==== Sys2Proof/Machine/Flags.lean ====
section
/-! DEFINITION. The block has no condition flags (spec/42_ring.md R199). Its status words are the three packed
registers of spec/10_state.md R60, and its data-dependent predicates those of S24 detection (spec/43_convert_push.md
R224). -/

namespace Sys2Proof.Machine

/-- The 2-bit code of `S24_MODE` (R30). -/
def S24Mode.code : S24Mode → BitVec 2
  | .unknown => 0
  | .lsbAligned => 1
  | .msbAligned => 2
  | .deferred => 3

/-- The 4-bit code of a response status (R113). -/
def Status.code : Status → BitVec 4
  | .done => 0
  | .noregion => 1
  | .inactive => 2
  | .illegal => 3
  | .fatal => 4

/-- Register 0x05 (R60): mode in bits 1:0, hint in bits 3:2, confirmed in bit 4. -/
def State.s24Status (s : State) : Word := (0 : BitVec 27) ++ bit s.s24Confirmed ++ s.s24Hint.code ++ s.s24Mode.code

/-- Register 0x07 (R60): RECONFIG in bit 0, REG[P] in bit 1, REG[C] in bit 2, ACTIVE_USERS in bits 15:8. -/
def State.guardStatus (s : State) : Word :=
  (0 : BitVec 16) ++ s.activeUsers ++ (0 : BitVec 5) ++ bit s.regC ++ bit s.regP ++ bit s.reconfig

/-- Register 0x08 (R60): FATAL in bit 0, FATAL_CODE in bits 15:8. -/
def State.faultStatus (s : State) : Word := (0 : BitVec 16) ++ s.fatalCode ++ (0 : BitVec 7) ++ bit s.fatal

/-- Byte `k` of each of the first `m` 4-byte samples is 0: `zl` for k = 0 and `zh` for k = 3 (R224). -/
def allZeroAt (bytes : List Byte) (k m : Nat) : Bool :=
  (List.range m).all (fun i => decide (bytes.getD (4 * i + k) 0 = 0))

end Sys2Proof.Machine
end

