-- ==== Sys2Proof/Machine/Ring.lean ====
section
/-! DEFINITION. The ring commands (spec/42_ring.md): RESIZE, CLEAR, PUSH, POP, the zero-copy pairs, the snapshots, and
the ring window accesses of R190 and R194. -/

namespace Sys2Proof.Machine

/-- A command of one step (R15): `body` if nothing is in flight on its port. -/
def oneStep (i : Instr) (s : State) (body : Result) : Result :=
  match s.progress i with
  | .fresh => body
  | _ => .refused .portBusy

/-- One-step commands of K under exclusive ownership (R322): `t` is the state they leave, answered (DONE, 0, 0). -/
def underExcl (i : Instr) (s : State) (t : State) : Result :=
  oneStep i s
    (match needExcl s.phaseK with
     | some r => .refused r
     | none => .next (t.finish .config (done 0 0)))

/-- RESIZE (R182). -/
def execResize (capacity : Word) (silenceByte : Byte) (s : State) : Result :=
  underExcl (.resize capacity silenceByte) s
    { s with sizeLog2 := BitVec.ofNat 6 (clog2 capacity.toNat), silence := silenceByte }.emptyRing.s24Reset

/-- CLEAR (R183). -/
def execClear (s : State) : Result := underExcl .clear s s.emptyRing.s24Reset

/-- PUSH (R184): s1 bounds the count, s2 moves the bytes into the free area, s3 publishes them. -/
def execPush (src len : Word) (s : State) : Result :=
  match s.progress (.push src len) with
  | .fresh =>
    match needGuarded s.phaseP with
    | some r => .refused r
    | none =>
      let n := min len.toNat s.free.toNat
      if n = 0 then .next (s.finish .producer (done 0 0)) else .next (s.goTo (.push src len) (.move s.wp n))
  | .at (.move w n) =>
    match s.hostRefusal .producer [rangeAt src n] [] with
    | some r => .refused r
    | none =>
      match s.ringPut w (s.memReadHost src.toNat n) with
      | none => .fault .ringRange
      | some t => .next (t.goTo (.push src len) (.publish w n))
  | .at (.publish w n) =>
    .next ({ s with wp := advancePos s.mask w n }.finish .producer (done (BitVec.ofNat 32 n) 0))
  | _ => .refused .portBusy

/-- POP (R186): s1 bounds the count, s2 moves the bytes out to HOST memory, s3 frees them. -/
def execPop (dst len : Word) (s : State) : Result :=
  match s.progress (.pop dst len) with
  | .fresh =>
    match needGuarded s.phaseC with
    | some r => .refused r
    | none =>
      let n := min len.toNat s.avail.toNat
      if n = 0 then .next (s.finish .consumer (done 0 0)) else .next (s.goTo (.pop dst len) (.move s.rp n))
  | .at (.move r n) =>
    match s.hostRefusal .consumer [] [rangeAt dst n] with
    | some e => .refused e
    | none =>
      match s.ringGet r n with
      | none => .fault .ringRange
      | some v => .next ((s.memWriteHost dst.toNat v).goTo (.pop dst len) (.publish r n))
  | .at (.publish r n) =>
    .next ({ s with rp := advancePos s.mask r n }.finish .consumer (done (BitVec.ofNat 32 n) 0))
  | _ => .refused .portBusy

/-- The answer to a zero-copy request that cannot be granted (R188, R192, D50). -/
def noRegion : Response := { st := .noregion, v0 := 0, v1 := 0 }

/-- Contiguous free bytes at `WP` (R188). -/
def State.contiguousFree (s : State) : Nat := min s.free.toNat (s.size - s.wp.toNat)

/-- Contiguous occupied bytes at `RP` (R192). -/
def State.contiguousAvail (s : State) : Nat := min s.avail.toNat (s.size - s.rp.toNat)

/-- WRGN (R188). -/
def execWrgn (needed : Word) (s : State) : Result :=
  oneStep (.wrgn needed) s
    (match needGuarded s.phaseP with
     | some r => .refused r
     | none =>
       let c := s.contiguousFree
       if c < needed.toNat then .next (s.finish .producer noRegion)
       else .next ({ s with wregion := some ⟨s.wp, c⟩, winWritten := [], phaseP := .region }.finish .producer
         (done s.wp (BitVec.ofNat 32 c))))

/-- WCOMMIT (R189); the committed bytes must have been written through the window (R325, U5). -/
def execWcommit (written : Word) (s : State) : Result :=
  oneStep (.wcommit written) s
    (match needRegion s.phaseP, s.wregion with
     | some r, _ => .refused r
     | none, none => .refused .noRegionOpen
     | none, some g =>
       if written.toNat ≤ g.len then
         if allWritten s.winWritten g.base.toNat written.toNat then
           .next ({ s with
               wp := advancePos s.mask g.base written.toNat, wregion := none, winWritten := []
               phaseP := .guarded }.finish .producer (done 0 0))
         else .refused .bytesNotWritten
       else .refused .grantExceeded)

/-- RRGN (R192). -/
def execRrgn (needed : Word) (s : State) : Result :=
  oneStep (.rrgn needed) s
    (match needGuarded s.phaseC with
     | some r => .refused r
     | none =>
       let c := s.contiguousAvail
       if c < needed.toNat then .next (s.finish .consumer noRegion)
       else .next ({ s with rregion := some ⟨s.rp, c⟩, phaseC := .region }.finish .consumer
         (done s.rp (BitVec.ofNat 32 c))))

/-- RADV (R193). -/
def execRadv (bytes : Word) (s : State) : Result :=
  oneStep (.radv bytes) s
    (match needRegion s.phaseC, s.rregion with
     | some r, _ => .refused r
     | none, none => .refused .noRegionOpen
     | none, some g =>
       if bytes.toNat ≤ g.len then
         .next ({ s with rp := advancePos s.mask g.base bytes.toNat, rregion := none, phaseC := .guarded }.finish
           .consumer (done 0 0))
       else .refused .grantExceeded)

/-- A snapshot of the positions on port `p`, answered with `v` (R196, R197). -/
def snapshot (i : Instr) (v : Word) (s : State) : Result :=
  oneStep i s
    (match s.needSnapshot i.port with
     | some r => .refused r
     | none => .next (s.finish i.port (done v 0)))

/-- AVAIL (R196). -/
def execAvail (p : Port) (s : State) : Result := snapshot (.avail p) s.avail s

/-- FREE (R197). -/
def execFree (p : Port) (s : State) : Result := snapshot (.free p) s.free s

/-- The range of `n` bytes at ring offset `off` lies inside the open region, if one is open (R190, R194). -/
def insideRegion (g : Option Region) (off n : Nat) : Bool :=
  match g with
  | none => false
  | some g => decide (g.base.toNat ≤ off) && decide (off + n ≤ g.base.toNat + g.len)

/-- `WinWrite(off, n, v)` on port P (R190): not a command, so the latch does not stop it (R283). What it
wrote is recorded for the commit (R325). -/
def winWrite (off : Word) (v : List Byte) (s : State) : Result :=
  if s.phaseP = .region ∧ insideRegion s.wregion off.toNat v.length = true then
    match s.ringWrite off.toNat v with
    | none => .fault .ringRange
    | some t => .next { t with winWritten := addOffsets s.winWritten off.toNat v.length }
  else .refused .windowOutside

/-- `WinRead(off, n)` on port C (R194); the bytes go to the consumer agent. -/
def winRead (off n : Word) (s : State) : Result :=
  if s.phaseC = .region ∧ insideRegion s.rregion off.toNat n.toNat = true then
    match s.ringRead off.toNat n.toNat with
    | none => .fault .ringRange
    | some v => .next { s with window := v }
  else .refused .windowOutside

end Sys2Proof.Machine
end

