-- ==== Sys2Proof/Machine/ConvertPush.lean ====
section
/-! DEFINITION. The converting pushes, S24 pack-mode detection and the hint (spec/43_convert_push.md). -/

namespace Sys2Proof.Machine

/-- What a converting push is made of (R220): its command, its input length, the bytes of a unit before and after
conversion, its staging buffer, the HOST ranges `n` units are read from, and step s2's conversion of `n` units, which
may change the S24 state. -/
structure Converting where
  instr   : Instr
  len     : Word
  uin     : Nat
  uout    : Nat
  buf     : StgBuf
  reads   : Nat → List HostRange
  convert : Nat → State → State × List Byte

/-- The steps the converting pushes share (R220): bound, convert into the staging buffer, move it into the ring,
publish and answer the input bytes consumed. -/
def convertPush (k : Converting) (s : State) : Result :=
  match s.progress k.instr with
  | .fresh =>
    match needGuarded s.phaseP with
    | some r => .refused r
    | none =>
      let n := bound k.len.toNat k.uin k.uout s.free.toNat
      if n = 0 then .next (s.finish .producer (done 0 0)) else .next (s.goTo k.instr (.move s.wp n))
  | .at (.move w n) =>
    match s.hostRefusal .producer (k.reads n) [] with
    | some r => .refused r
    | none =>
      match (k.convert n s).1.stgWrite k.buf 0 (k.convert n s).2 with
      | none => .fault .stagingRange
      | some t => .next (t.goTo k.instr (.transfer w n))
  | .at (.transfer w n) =>
    match s.stgRead k.buf 0 (k.uout * n) with
    | none => .fault .stagingRange
    | some out =>
      match s.ringPut w out with
      | none => .fault .ringRange
      | some t => .next (t.goTo k.instr (.publish w n))
  | .at (.publish w n) =>
    .next ({ s with wp := advancePos s.mask w (k.uout * n) }.finish .producer (done (BitVec.ofNat 32 (k.uin * n)) 0))
  | _ => .refused .portBusy

/-- The alignment a hint asks for (R31, R227). -/
def S24Hint.mode : S24Hint → Option S24Mode
  | .none => Option.none
  | .lsb => some .lsbAligned
  | .msb => some .msbAligned

/-- Unknown or Deferred (R224, R227). -/
def S24Mode.unresolved : S24Mode → Bool
  | .unknown => true
  | .lsbAligned => false
  | .msbAligned => false
  | .deferred => true

/-- The silence branch of `s24_detect` (R224): defer, count the call's samples, and at the timeout take the hint, or
LSB without one. -/
def State.s24Silence (s : State) (n : Nat) : State :=
  let s1 := { s with
    s24Mode := if s.s24Mode.unresolved then .deferred else s.s24Mode
    s24SilentCount := s.s24SilentCount + BitVec.ofNat 32 n }
  if s24SilenceTimeout < s1.s24SilentCount.toNat then
    { s1 with s24Mode := (S24Hint.mode s.s24Hint).getD .lsbAligned, s24Confirmed := true }
  else s1

/-- `s24_detect(in, n)` (R224). -/
def State.s24Detect (s : State) (bytes : List Byte) (n : Nat) : State :=
  let m := min s24DetectSamples n
  let zl := allZeroAt bytes 0 m
  let zh := allZeroAt bytes 3 m
  if zh && !zl then { s with s24Mode := .lsbAligned, s24Confirmed := true }
  else if zl && !zh then { s with s24Mode := .msbAligned, s24Confirmed := true }
  else if zl && zh then s.s24Silence n
  else s

/-- Step s2 of PUSH24 (R221): detection while unconfirmed, then packing by the mode it leaves (R222). -/
def convert24 (src : Word) (n : Nat) (s : State) : State × List Byte :=
  let bytes := s.memReadHost src.toNat (4 * n)
  let s1 := if s.s24Confirmed then s else s.s24Detect bytes n
  (s1, if s1.s24Mode = .msbAligned then pack24Msb n bytes else pack24Lsb n bytes)

/-- PUSH24 (R221). -/
def execPush24 (src len : Word) (s : State) : Result :=
  convertPush
    { instr := .push24 src len, len := len, uin := 4, uout := 3, buf := .pack24
      reads := fun n => [rangeAt src (4 * n)], convert := convert24 src } s

/-- PUSH16 (R230). -/
def execPush16 (src len : Word) (s : State) : Result :=
  convertPush
    { instr := .push16 src len, len := len, uin := 2, uout := 4, buf := .up16
      reads := fun n => [rangeAt src (2 * n)]
      convert := fun n s => (s, up16to32 n (s.memReadHost src.toNat (2 * n))) } s

/-- The blocks PUSHDSD reads (R236): the first `4 * g` bytes of each channel's block at stride `floor(len / C)`. -/
def planarBlocks (src len : Word) (channels : Byte) (g : Nat) (s : State) : List (List Byte) :=
  (planarRanges src (len.toNat / channels.toNat) (4 * g) channels.toNat).map (fun r => s.memReadHost r.base r.len)

/-- PUSHDSD (R236). -/
def execPushdsd (src len : Word) (channels : Byte) (rev swap : Bool) (s : State) : Result :=
  convertPush
    { instr := .pushdsd src len channels rev swap, len := len, uin := 4 * channels.toNat, uout := 4 * channels.toNat
      buf := .dsd
      reads := fun g => planarRanges src (len.toNat / channels.toNat) (4 * g) channels.toNat
      convert := fun g s => (s, dsdInterleave (planarBlocks src len channels g s) g rev swap) } s

/-- The hint applied (R227): stored always, taken as the mode from Unknown and Deferred. -/
def State.applyHint (s : State) (hint : S24Hint) : State :=
  { s with
    s24Hint := hint
    s24Mode := if s.s24Mode.unresolved then (S24Hint.mode hint).getD s.s24Mode else s.s24Mode }

/-- What S24HINT requires (R227): GUARDED on P, EXCL on K. -/
def State.needHint (s : State) (p : Port) : Option Refusal :=
  match p with
  | .producer => needGuarded s.phaseP
  | .config => needExcl s.phaseK
  | .consumer => none

/-- S24HINT (R227); on port C it is no command, and answered ILLEGAL (R123). -/
def execS24hint (p : Port) (hint : S24Hint) (s : State) : Result :=
  oneStep (.s24hint p hint) s
    (if p = .consumer then .next (s.finish p illegalResponse)
     else match s.needHint p with
       | some r => .refused r
       | none => .next ((s.applyHint hint).finish p (done 0 0)))

end Sys2Proof.Machine
end

