-- ==== Sys2Proof/Machine/Copy.lean ====
section
/-! DEFINITION. The copy engine (spec/40_copy.md): the fixed-timing schedule of R141 with its access counts (R146),
and the meanings of COPYF and COPYW. COPYF moves its bytes by the schedule; COPYW, whose schedule the source does
not give (R148), moves them at once. -/

namespace Sys2Proof.Machine

/-- One `move(off, width)` of R141: a load of `width` bytes at `src + off`, a store of them at `dst + off`. -/
structure Move where
  off   : Nat
  width : Nat
deriving DecidableEq, Repr

/-- The tail buckets of R141. -/
inductive Bucket where
  | b64
  | b32
  | b16
  | b8
  | b4
  | b1
  | b0
deriving DecidableEq, Repr

/-- The bucket of a tail of `r` bytes; lower bounds are inclusive (R141). -/
def bucketOf (r : Nat) : Bucket :=
  if 64 ≤ r then .b64 else if 32 ≤ r then .b32 else if 16 ≤ r then .b16 else if 8 ≤ r then .b8
  else if 4 ≤ r then .b4 else if 1 ≤ r then .b1 else .b0

/-- The four moves of block `i` of the main loop (R141). -/
def blockMoves (i : Nat) : List Move :=
  [⟨128 * i, 32⟩, ⟨128 * i + 32, 32⟩, ⟨128 * i + 64, 32⟩, ⟨128 * i + 96, 32⟩]

/-- The tail moves of a copy of `n` bytes whose tail starts at `t` (R141): in a bucket of width w, the first w bytes
of the tail and the last w. -/
def tailMoves (t n : Nat) : List Move :=
  match bucketOf (n - t) with
  | .b64 => [⟨t, 32⟩, ⟨t + 32, 32⟩, ⟨n - 64, 32⟩, ⟨n - 32, 32⟩]
  | .b32 => [⟨t, 32⟩, ⟨n - 32, 32⟩]
  | .b16 => [⟨t, 16⟩, ⟨n - 16, 16⟩]
  | .b8 => [⟨t, 8⟩, ⟨n - 8, 8⟩]
  | .b4 => [⟨t, 4⟩, ⟨n - 4, 4⟩]
  | .b1 => [⟨t, 1⟩, ⟨t + (n - t) / 2, 1⟩, ⟨n - 1, 1⟩]
  | .b0 => []

/-- The schedule of `copy_fixed` for `n` bytes (R141). -/
def copySchedule (n : Nat) : List Move :=
  (List.range (n / copyBlock)).flatMap blockMoves ++ tailMoves (copyBlock * (n / copyBlock)) n

/-- c(bucket) of R146: the loads, and the stores, of a tail. -/
def tailAccesses : Bucket → Nat
  | .b64 => 4
  | .b32 => 2
  | .b16 => 2
  | .b8 => 2
  | .b4 => 2
  | .b1 => 3
  | .b0 => 0

/-- The loads, and the stores, of one fixed-timing copy of `n` bytes (R146). -/
def copyAccesses (n : Nat) : Nat := 4 * (n / copyBlock) + tailAccesses (bucketOf (n % copyBlock))

/-- The place of a bucket's latency in `T_TAIL` (R146). -/
def Bucket.index : Bucket → Nat
  | .b64 => 0
  | .b32 => 1
  | .b16 => 2
  | .b8 => 3
  | .b4 => 4
  | .b1 => 5
  | .b0 => 6

/-- The latency of one fixed-timing copy (R146, R340): timing, which no rule and no meaning reads. -/
def copyLatency (cfg : Config) (n : Nat) : Nat :=
  (n / copyBlock) * cfg.tBlock + cfg.tTail.getD (bucketOf (n % copyBlock)).index 0

/-- The access width COPYW uses (R149): timing, which no meaning reads. -/
def wideAccess (cfg : Config) (n : Nat) : Nat := if cfg.hasVec512 && decide (cfg.wideThreshold ≤ n) then 64 else 32

/-- Byte storage after one move of the copy of `v` to address `dst` (R141). -/
def storeMove (d : Byte) (dst : Nat) (v : List Byte) (m : Memory) (mv : Move) : Memory :=
  memWrite d m (dst + mv.off) ((v.drop mv.off).take mv.width)

/-- Byte storage after the fixed-timing copy of the source bytes `v` to address `dst` (R141): every move of the
schedule, in its order. -/
def copyFixed (d : Byte) (m : Memory) (dst : Nat) (v : List Byte) : Memory :=
  (copySchedule v.length).foldl (storeMove d dst v) m

/-- The three steps COPYF and COPYW share (R145, R148); `moved` is HOST space after step s2. DESIGN CHOICE (log 29): the
HOST access conditions (R72, R329) are checked at s2, so ranges that overlap raise the fatal condition at s1 (R144) even
where they also pass 2^32 or are not backed, cases R145 and U9 give no behaviour. -/
def copyCommand (i : Instr) (dst src n : Word) (moved : State → Memory) (s : State) : Result :=
  match s.progress i with
  | .fresh =>
    if overlap dst src n then .next (s.raiseFatal i.port copyOverlapCode) else .next (s.goTo i .copyMove)
  | .at .copyMove =>
    match s.hostRefusal i.port [rangeAt src n.toNat] [rangeAt dst n.toNat] with
    | some r => .refused r
    | none => .next ({ s with host := moved s }.goTo i .copyDone)
  | .at .copyDone => .next (s.finish i.port (done 0 0))
  | _ => .refused .portBusy

/-- COPYF (R145): overlap raises the fatal condition whichever way the strap is set (R144, log 9). -/
def execCopyf (p : Port) (dst src n : Word) (s : State) : Result :=
  copyCommand (.copyf p dst src n) dst src n
    (fun s => copyFixed hostFill s.host dst.toNat (s.memReadHost src.toNat n.toNat)) s

/-- COPYW (R148): as COPYF, the bytes moved by a schedule the source does not give. -/
def execCopyw (p : Port) (dst src n : Word) (s : State) : Result :=
  copyCommand (.copyw p dst src n) dst src n
    (fun s => memWrite hostFill s.host dst.toNat (s.memReadHost src.toNat n.toNat)) s

end Sys2Proof.Machine
end

