-- ==== Sys2Proof/Machine/Format.lean ====
section
/-! DEFINITION. The format state (spec/44_guards_format.md R262 to R265): SETFMT, its ten field stores in any order,
and RDREG over every register of spec/10_state.md R60. -/

namespace Sys2Proof.Machine

/-- The ten fields, each pending once (R262). -/
def allFmtFields : List FmtField :=
  [.rate, .channels, .bytesIn, .bytesOut, .dsd, .pack24, .up16to32, .dsdBitrev, .dsdBswap, .lowbitrate]

/-- `store_release` of one field: `old` with field `x` of `new` (R262). -/
def storeField (old new : Format) (x : FmtField) : Format :=
  match x with
  | .rate => { old with rate := new.rate }
  | .channels => { old with channels := new.channels }
  | .bytesIn => { old with bytesIn := new.bytesIn }
  | .bytesOut => { old with bytesOut := new.bytesOut }
  | .dsd => { old with dsd := new.dsd }
  | .pack24 => { old with pack24 := new.pack24 }
  | .up16to32 => { old with up16to32 := new.up16to32 }
  | .dsdBitrev => { old with dsdBitrev := new.dsdBitrev }
  | .dsdBswap => { old with dsdBswap := new.dsdBswap }
  | .lowbitrate => { old with lowbitrate := new.lowbitrate }

/-- The pending store that comes next: the turn's choice, since R262 gives no order (log 13). -/
def pickField (pending : List FmtField) (choice : Nat) : Option FmtField := pending[choice % pending.length]?

/-- One of SETFMT's pending stores (R262), or s2 when none is left: the generation counter and the response. -/
def fmtStep (f : Format) (pending : List FmtField) (s : State) : State :=
  match pickField pending s.choice with
  | some x => { s with fmt := storeField s.fmt f x }.goTo (.setfmt f) (.fmtStore (pending.erase x))
  | none => { s with fmtGen := s.fmtGen + 1 }.finish .config (done 0 0)

/-- SETFMT (R262). -/
def execSetfmt (f : Format) (s : State) : Result :=
  match s.progress (.setfmt f) with
  | .fresh =>
    match needExcl s.phaseK with
    | some r => .refused r
    | none => .next (fmtStep f allFmtFields s)
  | .at (.fmtStore pending) => .next (fmtStep f pending s)
  | _ => .refused .portBusy

/-- A flag as a 64-bit register value. -/
def flagValue (b : Bool) : BitVec 64 := (bit b).setWidth 64

/-- The value of a register, zero-extended to 64 bits (R60, R265). -/
def State.readReg (s : State) : RegNum → BitVec 64
  | .size => BitVec.ofNat 64 s.size
  | .mask => s.mask.setWidth 64
  | .wp => s.wp.setWidth 64
  | .rp => s.rp.setWidth 64
  | .silence => s.silence.setWidth 64
  | .s24Status => s.s24Status.setWidth 64
  | .s24SilentCount => s.s24SilentCount.setWidth 64
  | .guardStatus => s.guardStatus.setWidth 64
  | .faultStatus => s.faultStatus.setWidth 64
  | .fmtRate => s.fmt.rate.setWidth 64
  | .fmtChannels => s.fmt.channels.setWidth 64
  | .fmtBytesIn => s.fmt.bytesIn.setWidth 64
  | .fmtBytesOut => s.fmt.bytesOut.setWidth 64
  | .fmtDsd => flagValue s.fmt.dsd
  | .fmtPack24 => flagValue s.fmt.pack24
  | .fmtUp16to32 => flagValue s.fmt.up16to32
  | .fmtDsdBitrev => flagValue s.fmt.dsdBitrev
  | .fmtDsdBswap => flagValue s.fmt.dsdBswap
  | .fmtLowbitrate => flagValue s.fmt.lowbitrate
  | .fmtGen => BitVec.ofNat 64 s.fmtGen

/-- RDREG (R265): legal in every phase. -/
def execRdreg (p : Port) (reg : RegNum) (s : State) : Result :=
  match s.progress (.rdreg p reg) with
  | .fresh =>
    let v := s.readReg reg
    .next (s.finish p (done (v.extractLsb' 0 32) (v.extractLsb' 32 32)))
  | _ => .refused .portBusy

end Sys2Proof.Machine
end

