-- ==== Sys2Proof/Machine/Guards.lean ====
section
/-! DEFINITION. The reconfiguration protocol's two guards (spec/44_guards_format.md R250 to R260), step by step, since
steps of other ports may fall between them. -/

namespace Sys2Proof.Machine

/-- The answer of an Access Guard entry that found a reconfiguration in progress (R251). -/
def inactive : Response := { st := .inactive, v0 := 0, v1 := 0 }

/-- GENTER (R251): g1 reads the flag, g2 registers, g3 re-checks, g4 keeps or undoes the registration. -/
def execGenter (p : DataPort) (s : State) : Result :=
  match s.progress (.genter p) with
  | .fresh =>
    if s.phase p = .idle then
      if s.reconfig then .next (s.finish p.port inactive) else .next (s.goTo (.genter p) .g2)
    else .refused .nestedGuard
  | .at .g2 => .next (s.incUsers.goTo (.genter p) .g3)
  | .at .g3 => .next (s.goTo (.genter p) (.g4 s.reconfig))
  | .at (.g4 f) =>
    if f then .next (s.decUsers.finish p.port inactive)
    else .next ((s.setGuard p true .guarded).finish p.port (done 0 0))
  | _ => .refused .portBusy

/-- GEXIT (R254): undoes the port's own registration, if it has one. -/
def execGexit (p : DataPort) (s : State) : Result :=
  oneStep (.gexit p) s
    (if s.phase p = .region then .refused .regionOpen
     else .next (((if s.reg p then s.decUsers else s).setGuard p false .idle).finish p.port (done 0 0)))

/-- RENTER (R256): r1 sets the flag, r2 waits for the counter to reach 0. A poll that finds it not 0 changes nothing
(R258). -/
def execRenter (s : State) : Result :=
  match s.progress .renter with
  | .fresh =>
    if s.phaseK = .idle ∧ s.reconfig = false then
      .next ({ s with reconfig := true, phaseK := .waiting }.goTo .renter .r2)
    else .refused .reconfigBusy
  | .at .r2 =>
    if s.activeUsers = 0 then .next ({ s with phaseK := .excl }.finish .config (done 0 0)) else .next s
  | _ => .refused .portBusy

/-- REXIT (R260). -/
def execRexit (s : State) : Result := underExcl .rexit s { s with reconfig := false, phaseK := .idle }

end Sys2Proof.Machine
end

