-- ==== Sys2Proof/Machine/Dispatch.lean ====
section
/-! DEFINITION. One arm per command: `exec` makes the command's next labelled step on its port (R15). -/

namespace Sys2Proof.Machine

def exec (i : Instr) (s : State) : Host.Outcome State Fault Refusal :=
  match i with
  | .copyf p dst src n => Sys2Proof.Machine.execCopyf p dst src n s
  | .copyw p dst src n => Sys2Proof.Machine.execCopyw p dst src n s
  | .push src len => Sys2Proof.Machine.execPush src len s
  | .pop dst len => Sys2Proof.Machine.execPop dst len s
  | .wrgn needed => Sys2Proof.Machine.execWrgn needed s
  | .wcommit written => Sys2Proof.Machine.execWcommit written s
  | .rrgn needed => Sys2Proof.Machine.execRrgn needed s
  | .radv bytes => Sys2Proof.Machine.execRadv bytes s
  | .avail p => Sys2Proof.Machine.execAvail p s
  | .free p => Sys2Proof.Machine.execFree p s
  | .resize capacity silenceByte => Sys2Proof.Machine.execResize capacity silenceByte s
  | .clear => Sys2Proof.Machine.execClear s
  | .push24 src len => Sys2Proof.Machine.execPush24 src len s
  | .push16 src len => Sys2Proof.Machine.execPush16 src len s
  | .pushdsd src len channels rev swap => Sys2Proof.Machine.execPushdsd src len channels rev swap s
  | .s24hint p hint => Sys2Proof.Machine.execS24hint p hint s
  | .genter p => Sys2Proof.Machine.execGenter p s
  | .gexit p => Sys2Proof.Machine.execGexit p s
  | .renter => Sys2Proof.Machine.execRenter s
  | .rexit => Sys2Proof.Machine.execRexit s
  | .setfmt f => Sys2Proof.Machine.execSetfmt f s
  | .rdreg p reg => Sys2Proof.Machine.execRdreg p reg s

end Sys2Proof.Machine
end

