-- ==== Sys2Proof/Machine/Agents.lean ====
section
/-! DEFINITION. What the outside world does to the block, one entry of the schedule at a time: a port's turn with the
checks of spec/60_exceptions.md R285, the ring windows, an agent's store into HOST memory, and reset. -/

namespace Sys2Proof.Machine

/-- A descriptor taken from port `p` (R285): the latch first, then decoding, then the command itself, whose meaning
checks what it requires, then overlap, and makes its first step. -/
def takeCommand (p : Port) (d : Descriptor) (s : State) : Result :=
  if s.fatal then .next (s.finish p (fatalResponse s.fatalCode))
  else match decode s.cfg p d with
    | .error _ => .next (s.finish p illegalResponse)
    | .ok i => exec i s

/-- Port `p`'s turn (R290): the next step of its command in flight, else its agent's next descriptor, whose issue
ends the last response, else nothing. -/
def turn (p : Port) (s : State) : Result :=
  match (s.lane p).inflight with
  | some c => exec c.instr s
  | none =>
    match (s.lane p).stream with
    | [] => .next s
    | d :: ds => takeCommand p d (s.setLane p { stream := ds, inflight := none, resp := none })

/-- An agent's store into HOST memory (R72); it must not touch a range of any command in flight (R329). -/
def hostStore (addr : Word) (v : List Byte) (s : State) : Result :=
  if rangesInHost [rangeAt addr v.length] = false then .refused .hostPastTop
  else if Config.admits s.cfg [rangeAt addr v.length] = false then .refused .hostNotAdmitted
  else if [Port.producer, .consumer, .config].any
      (fun q => raceWith [] [rangeAt addr v.length] (s.lane q).inflight) then .refused .hostRace
  else .next (s.memWriteHost addr.toNat v)

/-- One entry of the schedule. -/
def handle (e : Event) (s : State) : Result :=
  match e with
  | .turn p choice => turn p { s with choice := choice }
  | .winWrite off v => winWrite off v s
  | .winRead off n => winRead off n s
  | .hostStore addr v => hostStore addr v s
  | .reset landed => .next (s.blockReset landed)

/-- The next entry of the schedule; with none, the block waits (R310, log 20). -/
def nextEvent (s : State) : Result :=
  match s.schedule with
  | [] => .next s
  | e :: es => handle e { s with schedule := es }

/-- `d` as the next descriptor of port `p`, whose turn comes next (log 2). -/
def State.present (s : State) (p : Port) (d : Descriptor) : State :=
  { s.setLane p { s.lane p with inflight := none, stream := d :: (s.lane p).stream } with
    schedule := .turn p 0 :: s.schedule }

end Sys2Proof.Machine
end

