-- ==== Sys2Proof/Machine/Step.lean ====
section
/-! DEFINITION. One step of the machine, and a descriptor placed where the next step takes its command from. -/

namespace Sys2Proof.Machine

/-- One step: the next entry of the schedule. -/
def step (s : State) : Host.Outcome State Fault Refusal := nextEvent s

/-- `s` with the descriptor of `w`'s low `nbits` bits issued next, on the port `portFor` gives, that port's turn being
next (log 2, log 25). -/
def State.withFetchWord (s : State) (nbits w : Nat) : State :=
  let d := Descriptor.ofBytes (descriptorBytes nbits w)
  s.present (portFor s.cfg d) d

end Sys2Proof.Machine
end

