-- ==== Sys2Proof/Safety.lean ====
section
/-! DEFINITION. The terms claims are stated in: what is stored in the ring as a sequence, what stays the same in
memory, and the invariant of every run from reset, part by part. -/

namespace Sys2Proof.Machine

/-- The `n` bytes of `RING` from offset `off`, around the wrap (R71). -/
def State.ringSeq (s : State) (off n : Nat) : List Byte :=
  (List.range n).map (fun i => s.ringByte ((off + i) % s.size))

/-- The occupied bytes in the order they went in (R25, R198): the ring as a queue. -/
def State.contents (s : State) : List Byte := s.ringSeq s.rp.toNat s.avail.toNat

/-- Offset `o` is one of the `n` offsets `(w + i) mod SIZE` (R71). -/
def State.inRingRange (s : State) (w n o : Nat) : Prop := ∃ i, i < n ∧ o = (w + i) % s.size

/-- Every byte of HOST space reads as before. -/
def sameHost (s t : State) : Prop := ∀ a, t.hostByte a = s.hostByte a

/-- Every byte of RING space reads as before. -/
def sameRing (s t : State) : Prop := ∀ o, t.ringByte o = s.ringByte o

/-- Every byte of STG space reads as before. -/
def sameStaging (s t : State) : Prop := ∀ j o, t.stgByte j o = s.stgByte j o

/-- Every byte of memory reads as before. -/
def sameMemory (s t : State) : Prop := sameHost s t ∧ sameRing s t ∧ sameStaging s t

/-- Port `p` has nothing in flight: its agent may issue a command (R290). -/
def State.portFree (s : State) (p : Port) : Prop := (s.lane p).inflight = none

/-- The command in flight on its own port is `i`, about to make step `st`. -/
def State.atStage (s : State) (i : Instr) (st : Stage) : Prop :=
  (s.lane i.port).inflight = some { instr := i, stage := st }

/-- The bytes a producer's command in flight puts into the ring, or a POP takes out of it (R220). -/
def Command.ringCount (c : Command) : Nat :=
  match c.instr, c.stage with
  | .push _ _, .move _ n => n
  | .push _ _, .publish _ n => n
  | .pop _ _, .move _ n => n
  | .pop _ _, .publish _ n => n
  | .push24 _ _, .move _ n => 3 * n
  | .push24 _ _, .transfer _ n => 3 * n
  | .push24 _ _, .publish _ n => 3 * n
  | .push16 _ _, .move _ n => 4 * n
  | .push16 _ _, .transfer _ n => 4 * n
  | .push16 _ _, .publish _ n => 4 * n
  | .pushdsd _ _ ch _ _, .move _ n => 4 * ch.toNat * n
  | .pushdsd _ _ ch _ _, .transfer _ n => 4 * ch.toNat * n
  | .pushdsd _ _ ch _ _, .publish _ n => 4 * ch.toNat * n
  | _, _ => 0

/-- The position a moving command read at its first step. -/
def Stage.pos : Stage → Option Word
  | .move w _ => some w
  | .transfer w _ => some w
  | .publish w _ => some w
  | _ => none

/-- A command in flight stands at one of its own steps, with a count its first step can have left (R184, R186, R221,
R230, R236, R251, R256, R262). -/
def Command.legal (c : Command) : Bool :=
  match c.instr, c.stage with
  | .copyf _ dst src n, .copyMove => !overlap dst src n
  | .copyf _ dst src n, .copyDone => !overlap dst src n
  | .copyw _ dst src n, .copyMove => !overlap dst src n
  | .copyw _ dst src n, .copyDone => !overlap dst src n
  | .push _ len, .move _ n => decide (0 < n ∧ n ≤ len.toNat)
  | .push _ len, .publish _ n => decide (0 < n ∧ n ≤ len.toNat)
  | .pop _ len, .move _ n => decide (0 < n ∧ n ≤ len.toNat)
  | .pop _ len, .publish _ n => decide (0 < n ∧ n ≤ len.toNat)
  | .push24 _ len, .move _ n => decide (0 < n ∧ 4 * n ≤ len.toNat ∧ 3 * n ≤ stagingSize)
  | .push24 _ len, .transfer _ n => decide (0 < n ∧ 4 * n ≤ len.toNat ∧ 3 * n ≤ stagingSize)
  | .push24 _ len, .publish _ n => decide (0 < n ∧ 4 * n ≤ len.toNat ∧ 3 * n ≤ stagingSize)
  | .push16 _ len, .move _ n => decide (0 < n ∧ 2 * n ≤ len.toNat ∧ 4 * n ≤ stagingSize)
  | .push16 _ len, .transfer _ n => decide (0 < n ∧ 2 * n ≤ len.toNat ∧ 4 * n ≤ stagingSize)
  | .push16 _ len, .publish _ n => decide (0 < n ∧ 2 * n ≤ len.toNat ∧ 4 * n ≤ stagingSize)
  | .pushdsd _ len ch _ _, .move _ n =>
    decide (ch ≠ 0 ∧ 0 < n ∧ 4 * ch.toNat * n ≤ len.toNat ∧ 4 * ch.toNat * n ≤ stagingSize)
  | .pushdsd _ len ch _ _, .transfer _ n =>
    decide (ch ≠ 0 ∧ 0 < n ∧ 4 * ch.toNat * n ≤ len.toNat ∧ 4 * ch.toNat * n ≤ stagingSize)
  | .pushdsd _ len ch _ _, .publish _ n =>
    decide (ch ≠ 0 ∧ 0 < n ∧ 4 * ch.toNat * n ≤ len.toNat ∧ 4 * ch.toNat * n ≤ stagingSize)
  | .genter _, .g2 => true
  | .genter _, .g3 => true
  | .genter _, .g4 _ => true
  | .renter, .r2 => true
  | .setfmt _, .fmtStore pending => decide pending.Nodup
  | _, _ => false

/-- A port's command in flight is a command of that port at one of its steps. -/
def State.LanesInv (s : State) : Prop :=
  ∀ p c, (s.lane p).inflight = some c → c.instr.port = p ∧ c.legal = true

/-- R11, R21, R23, R24: the size is legal and both positions are below it. -/
def State.PositionsInv (s : State) : Prop :=
  s.cfg.wf = true ∧ s.sizeLog2.toNat ≤ s.cfg.log2SizeMax ∧ s.wp.toNat < s.size ∧ s.rp.toNat < s.size

/-- Every byte storage is in canonical form and inside its space (R70). -/
def State.MemoryInv (s : State) : Prop :=
  Memory.wf hostFill hostSize s.host = true ∧ Memory.wf s.silence s.size s.ring = true ∧
    ∀ j, Memory.wf stagingFill stagingSize (s.stg j) = true

/-- R33, R34: a confirmed mode is an alignment; the silent count stays within R33's bound. -/
def State.S24Inv (s : State) : Prop :=
  (s.s24Confirmed = true → s.s24Mode = .lsbAligned ∨ s.s24Mode = .msbAligned) ∧
    (s.s24Confirmed = false → s.s24SilentCount.toNat ≤ s24SilenceTimeout) ∧
    s.s24SilentCount.toNat ≤ s24SilenceTimeout + 21845

/-- The stage of a GENTER in flight on a data port. -/
def State.genterStage (s : State) (p : DataPort) : Option Stage :=
  match (s.lane p.port).inflight with
  | some { instr := .genter _, stage := st } => some st
  | _ => none

/-- What a data port contributes to `ACTIVE_USERS` (R41): it is registered, or its GENTER has incremented and not yet
decided. -/
def State.usersOf (s : State) (p : DataPort) : Nat :=
  if s.reg p then 1
  else match s.genterStage p with
    | some .g3 => 1
    | some (.g4 _) => 1
    | _ => 0

/-- The guard unit (R40 to R43, R52, R259). -/
def State.GuardInv (s : State) : Prop :=
  (∀ p, s.reg p = true ↔ s.phase p ≠ .idle) ∧
    (∀ p, s.genterStage p ≠ none → s.phase p = .idle) ∧
    s.activeUsers.toNat = s.usersOf .producer + s.usersOf .consumer ∧
    (s.reconfig = true ↔ s.phaseK ≠ .idle) ∧
    (s.phaseK = .waiting ↔ s.laneK.inflight = some { instr := .renter, stage := .r2 }) ∧
    (s.phaseK = .excl → ∀ p, s.reg p = false ∧ s.genterStage p ≠ some (.g4 false)) ∧
    (∀ f pending, s.laneK.inflight = some { instr := .setfmt f, stage := .fmtStore pending } → s.phaseK = .excl)

/-- A push in flight holds the current `WP`, its bytes fit the free area, and its port is guarded; a POP likewise
(R93). -/
def State.TransferInv (s : State) : Prop :=
  (∀ c w, s.laneP.inflight = some c → c.stage.pos = some w →
      w = s.wp ∧ c.ringCount ≤ s.free.toNat ∧ s.phaseP = .guarded) ∧
    (∀ c r, s.laneC.inflight = some c → c.stage.pos = some r →
      r = s.rp ∧ c.ringCount ≤ s.avail.toNat ∧ s.phaseC = .guarded)

/-- R53, R190, R194, R325: an open region starts at the port's own position, lies in its area and does not wrap; the
record of window writes rises and lies in the open write region, and is empty without one. -/
def State.RegionInv (s : State) : Prop :=
  (s.phaseP = .region ↔ s.wregion ≠ none) ∧ (s.phaseC = .region ↔ s.rregion ≠ none) ∧
    (∀ g, s.wregion = some g → g.base = s.wp ∧ g.len ≤ s.free.toNat ∧ g.base.toNat + g.len ≤ s.size) ∧
    (∀ g, s.rregion = some g → g.base = s.rp ∧ g.len ≤ s.avail.toNat ∧ g.base.toNat + g.len ≤ s.size) ∧
    s.winWritten.Pairwise (· < ·) ∧
    (∀ o ∈ s.winWritten, ∃ g, s.wregion = some g ∧ g.base.toNat ≤ o ∧ o < g.base.toNat + g.len)

/-- R50, R281: the latch holds COPY_OVERLAP or nothing. -/
def State.FaultInv (s : State) : Prop :=
  (s.fatal = true → s.fatalCode = copyOverlapCode) ∧ (s.fatal = false → s.fatalCode = 0)

/-- Every field a SETFMT in flight has stored already holds its operand (R262). -/
def State.FormatInv (s : State) : Prop :=
  ∀ f pending, s.laneK.inflight = some { instr := .setfmt f, stage := .fmtStore pending } →
    ∀ x, x ∉ pending → storeField s.fmt f x = s.fmt

/-- The invariant of every run from reset. -/
structure State.Inv (s : State) : Prop where
  lanes     : s.LanesInv
  positions : s.PositionsInv
  memory    : s.MemoryInv
  s24       : s.S24Inv
  guards    : s.GuardInv
  transfers : s.TransferInv
  regions   : s.RegionInv
  fault     : s.FaultInv
  format    : s.FormatInv

/-- The command the next step makes a labelled step of, if it is a port's turn and one is in flight or is taken: the
latch unset and the descriptor a command of the port (R285, R290). -/
def State.nextCommand (s : State) : Option Instr :=
  match s.schedule with
  | .turn p _ :: _ =>
    match (s.lane p).inflight, (s.lane p).stream with
    | some c, _ => some c.instr
    | none, [] => none
    | none, d :: _ => if s.fatal then none else (decode s.cfg p d).toOption
  | _ => none

/-- The next entry of the schedule is a reset (R311). -/
def State.resetNext (s : State) : Prop := ∃ landed es, s.schedule = .reset landed :: es

/-- The labelled steps a command in flight still has to make (R341); RENTER's second step may wait. -/
def Command.stepsLeft (c : Command) : Nat :=
  match c.instr, c.stage with
  | .push _ _, .move _ _ => 2
  | .pop _ _, .move _ _ => 2
  | _, .move _ _ => 3
  | _, .transfer _ _ => 2
  | _, .publish _ _ => 1
  | _, .copyMove => 2
  | _, .copyDone => 1
  | _, .g2 => 3
  | _, .g3 => 2
  | _, .g4 _ => 1
  | _, .r2 => 1
  | _, .fmtStore pending => pending.length + 1

/-- The table of R60, register by register: V0 plus 2^32 times V1. Bit fields stand at their places as sums, and
`FMT_GEN` is shown in 64 bits. -/
def State.registerValue (s : State) : RegNum → Nat
  | .size => 2 ^ s.sizeLog2.toNat
  | .mask => 2 ^ s.sizeLog2.toNat - 1
  | .wp => s.wp.toNat
  | .rp => s.rp.toNat
  | .silence => s.silence.toNat
  | .s24Status =>
    (match s.s24Mode with
      | .unknown => 0
      | .lsbAligned => 1
      | .msbAligned => 2
      | .deferred => 3)
    + 4 * (match s.s24Hint with
      | .none => 0
      | .lsb => 1
      | .msb => 2)
    + 16 * s.s24Confirmed.toNat
  | .s24SilentCount => s.s24SilentCount.toNat
  | .guardStatus => s.reconfig.toNat + 2 * s.regP.toNat + 4 * s.regC.toNat + 256 * s.activeUsers.toNat
  | .faultStatus => s.fatal.toNat + 256 * s.fatalCode.toNat
  | .fmtRate => s.fmt.rate.toNat
  | .fmtChannels => s.fmt.channels.toNat
  | .fmtBytesIn => s.fmt.bytesIn.toNat
  | .fmtBytesOut => s.fmt.bytesOut.toNat
  | .fmtDsd => s.fmt.dsd.toNat
  | .fmtPack24 => s.fmt.pack24.toNat
  | .fmtUp16to32 => s.fmt.up16to32.toNat
  | .fmtDsdBitrev => s.fmt.dsdBitrev.toNat
  | .fmtDsdBswap => s.fmt.dsdBswap.toNat
  | .fmtLowbitrate => s.fmt.lowbitrate.toNat
  | .fmtGen => s.fmtGen % 2 ^ 64

end Sys2Proof.Machine
end

