-- ==== Sys2Proof/Certificates/Slice0/Obligations.lean ====
section
/-! DEFINITION. The statements for the provers. Each docstring names the rules of spec/ it formalises. A multi-step
command is stated step by step, for every state its step may find, so the statements hold under every interleaving;
`t = { s with … }` is the frame: whatever the braces do not name is as it was. -/

open Sys2Proof Sys2Proof.Machine

/-! Encoding and decoding (spec/30_encoding.md). -/

/-- Decoding the descriptor of a well-formed command, on its port, gives the command back, with every operand (R122:
encode-then-decode is an identity). -/
def Obligations.DecodeEncodeRoundTrip : Prop :=
  ∀ (cfg : Config) (i : Instr), i.wf cfg = true → decode cfg i.port (encode i) = .ok i

/-- A descriptor that decodes is the encoding of what it decodes to, and that is a well-formed command of the port
(R122: decode-then-encode is an identity; R123, R124). -/
def Obligations.EncodeDecodeRoundTrip : Prop :=
  ∀ (cfg : Config) (p : Port) (d : Descriptor) (i : Instr), decode cfg p d = .ok i →
    encode i = d ∧ i.port = p ∧ i.wf cfg = true

/-- R121: the reserved opcodes are exactly the listed ranges, on every port and whatever the other bits. -/
def Obligations.ReservedOpcodesAreIllegal : Prop :=
  ∀ (cfg : Config) (p : Port) (d : Descriptor), decode cfg p d = .error .reservedOpcode ↔
    (d.opc.toNat ≤ 0x0F ∨ (0x12 ≤ d.opc.toNat ∧ d.opc.toNat ≤ 0x1F) ∨ (0x2A ≤ d.opc.toNat ∧ d.opc.toNat ≤ 0x2F) ∨
      (0x34 ≤ d.opc.toNat ∧ d.opc.toNat ≤ 0x3F) ∨ 0x46 ≤ d.opc.toNat)

/-- R123: a command on a port outside its list in R114 is illegal, whatever the other bits, and only that is rejected
so. -/
def Obligations.WrongPortIsIllegal : Prop :=
  ∀ (cfg : Config) (p : Port) (d : Descriptor), decode cfg p d = .error .wrongPort ↔
    ((d.opc ∈ ([0x20, 0x22, 0x23, 0x30, 0x31, 0x32] : List Byte) ∧ p ≠ .producer) ∨
      (d.opc ∈ ([0x21, 0x24, 0x25] : List Byte) ∧ p ≠ .consumer) ∨
      (d.opc ∈ ([0x28, 0x29, 0x42, 0x43, 0x44] : List Byte) ∧ p ≠ .config) ∨
      (d.opc = 0x33 ∧ p = .consumer) ∨
      (d.opc ∈ ([0x40, 0x41] : List Byte) ∧ p = .config))

/-- R124: the four reserved operand values are illegal. -/
def Obligations.ReservedOperandsAreIllegal : Prop :=
  (∀ (cfg : Config) (p : Port), p ≠ .consumer →
    decode cfg p ⟨0x33000003, 0, 0, 0⟩ = .error .reservedOperand) ∧
  (∀ (cfg : Config) (p : Port) (idx : Byte), (0x09 ≤ idx.toNat ∧ idx.toNat ≤ 0x0F) ∨ 0x1B ≤ idx.toNat →
    decode cfg p ⟨packW0 0x45 0 0 idx, 0, 0, 0⟩ = .error .reservedOperand) ∧
  (∀ (cfg : Config) (capacity : Word) (silenceByte : Byte), 2 ^ cfg.log2SizeMax < capacity.toNat →
    decode cfg .config ⟨packW0 0x28 0 0 silenceByte, capacity, 0, 0⟩ = .error .reservedOperand) ∧
  (∀ (cfg : Config) (src len : Word) (mod : Byte), mod.toNat < 4 →
    decode cfg .producer ⟨packW0 0x32 mod 0 0, src, len, 0⟩ = .error .reservedOperand)

/-- R120, R285.2: an illegal descriptor is answered (ILLEGAL, 0, 0) and changes nothing; the port takes the next
command (its lane is free again). -/
def Obligations.IllegalDescriptorChangesNothing : Prop :=
  ∀ (s : State) (p : Port) (c : Nat) (es : List Event) (d : Descriptor) (ds : List Descriptor) (r : Option Response)
    (e : Illegal),
    s.schedule = .turn p c :: es → s.lane p = ⟨d :: ds, none, r⟩ → s.fatal = false → decode s.cfg p d = .error e →
      step s = .next (({ s with schedule := es, choice := c }).setLane p ⟨ds, none, some ⟨.illegal, 0, 0⟩⟩)

/-- A step runs the decoded command. On a port's turn with nothing in flight, the latch unset and a descriptor that
decodes to `i` next in its stream, `step` is `exec i` on the state with the descriptor taken; with a command in flight
it is that command's next labelled step, the latch set or not (R285, R283, R290). -/
def Obligations.StepRunsDecodedCommand : Prop :=
  (∀ (s : State) (p : Port) (c : Nat) (es : List Event) (d : Descriptor) (ds : List Descriptor) (r : Option Response)
    (i : Instr),
    s.schedule = .turn p c :: es → s.lane p = ⟨d :: ds, none, r⟩ → s.fatal = false → decode s.cfg p d = .ok i →
      step s = exec i (({ s with schedule := es, choice := c }).setLane p ⟨ds, none, none⟩)) ∧
  (∀ (s : State) (p : Port) (c : Nat) (es : List Event) (cmd : Command),
    s.schedule = .turn p c :: es → (s.lane p).inflight = some cmd →
      step s = exec cmd.instr { s with schedule := es, choice := c })

/-- The port bookkeeping every meaning ends in: answering a command frees its port and records the response, going on
records the next labelled step, and neither touches another port or the block (R14, R15, R113). -/
def Obligations.PortBookkeeping : Prop :=
  ∀ (s : State) (i : Instr) (p : Port) (r : Response) (st : Stage),
    s.finish p r = (match p with
      | .producer => { s with laneP := ⟨s.laneP.stream, none, some r⟩ }
      | .consumer => { s with laneC := ⟨s.laneC.stream, none, some r⟩ }
      | .config => { s with laneK := ⟨s.laneK.stream, none, some r⟩ }) ∧
    s.goTo i st = (match i.port with
      | .producer => { s with laneP := ⟨s.laneP.stream, some ⟨i, st⟩, s.laneP.resp⟩ }
      | .consumer => { s with laneC := ⟨s.laneC.stream, some ⟨i, st⟩, s.laneC.resp⟩ }
      | .config => { s with laneK := ⟨s.laneK.stream, some ⟨i, st⟩, s.laneK.resp⟩ })

/-- R132: the worked encodings decode to the commands they stand for, and its counter-examples do not decode. -/
def Obligations.WorkedEncodingsDecode : Prop :=
  decode Config.suggested .config ⟨0x28000000, 0x000003E8, 0, 0⟩ = .ok (.resize 1000 0x00) ∧
  decode Config.suggested .config ⟨0x28000069, 0x00000010, 0, 0⟩ = .ok (.resize 16 0x69) ∧
  decode Config.suggested .producer ⟨0x20000000, 0x00001000, 0x00000384, 0⟩ = .ok (.push 0x1000 900) ∧
  decode Config.suggested .consumer ⟨0x21000000, 0x00002000, 0x00000320, 0⟩ = .ok (.pop 0x2000 800) ∧
  decode Config.suggested .producer ⟨0x10000000, 0x00003000, 0x00001000, 0x00000064⟩ =
    .ok (.copyf .producer 0x3000 0x1000 100) ∧
  decode Config.suggested .producer ⟨0x32030002, 0x00002000, 0x00000010, 0⟩ =
    .ok (.pushdsd 0x2000 16 2 true true) ∧
  decode Config.suggested .producer ⟨0x33000002, 0, 0, 0⟩ = .ok (.s24hint .producer .msb) ∧
  decode Config.suggested .config ⟨0x44020000, 0x0000AC44, 0x00030402, 0⟩ =
    .ok (.setfmt { rate := 44100, channels := 2, bytesIn := 4, bytesOut := 3, dsd := false, pack24 := true
                   up16to32 := false, dsdBitrev := false, dsdBswap := false, lowbitrate := false }) ∧
  decode Config.suggested .consumer ⟨0x4500001A, 0, 0, 0⟩ = .ok (.rdreg .consumer .fmtGen) ∧
  decode Config.suggested .producer ⟨0x40000000, 0, 0, 0⟩ = .ok (.genter .producer) ∧
  decode Config.suggested .producer ⟨0x20000001, 0, 0, 0⟩ = .error .unusedNotZero ∧
  decode Config.suggested .consumer ⟨0x20000000, 0, 0, 0⟩ = .error .wrongPort ∧
  decode Config.suggested .producer ⟨0x33000003, 0, 0, 0⟩ = .error .reservedOperand

/-! The copy engine (spec/40_copy.md). -/

/-- COPYF and COPYW, step by step (R145, R148, R140): s1 raises the fatal condition on overlap and otherwise goes on; s2
gives the destination the source bytes, leaves every other byte of every space, and so the source where the ranges are
disjoint; s3 answers (DONE, 0, 0). That the HOST access conditions are checked at s2, after the overlap check of s1, is the model's
choice (log 29). -/
def Obligations.CopiesMoveTheirBytes : Prop :=
  ∀ (i : Instr) (p : Port) (dst src n : Word) (s : State), i = .copyf p dst src n ∨ i = .copyw p dst src n →
    (s.portFree p → overlap dst src n = true →
      exec i s = .next (({ s with fatal := true, fatalCode := 1 }).finish p ⟨.fatal, 1, 0⟩)) ∧
    (s.portFree p → overlap dst src n = false → exec i s = .next (s.goTo i .copyMove)) ∧
    (s.atStage i .copyMove → s.hostRefusal p [rangeAt src n.toNat] [rangeAt dst n.toNat] = none →
      ∃ t, exec i s = .next t ∧ t = ({ s with host := t.host }).goTo i .copyDone ∧
        (∀ k < n.toNat, t.hostByte (dst.toNat + k) = s.hostByte (src.toNat + k)) ∧
        (∀ a, a < dst.toNat ∨ dst.toNat + n.toNat ≤ a → t.hostByte a = s.hostByte a) ∧
        (overlap dst src n = false → ∀ k < n.toNat, t.hostByte (src.toNat + k) = s.hostByte (src.toNat + k))) ∧
    (s.atStage i .copyDone → exec i s = .next (s.finish p ⟨.done, 0, 0⟩))

/-- R143, R281, R283: `overlap` is that the ranges share a byte, and a copy whose ranges do so raises the fatal condition
before any access; it sets the latch and its code, answers (FATAL, 1, 0) and changes nothing else. It does so whichever
way the strap is set, which for strap 0 is R144's direction to a model (log 9). That it does so where the ranges also pass
2^32 or are not backed, which R72 and U9 give no behaviour, is the model's choice (log 29). -/
def Obligations.OverlapRaisesFatal : Prop :=
  (∀ (dst src n : Word), overlap dst src n = true ↔
    (0 < n.toNat ∧ dst.toNat < src.toNat + n.toNat ∧ src.toNat < dst.toNat + n.toNat)) ∧
  (∀ (i : Instr) (p : Port) (dst src n : Word) (s : State), i = .copyf p dst src n ∨ i = .copyw p dst src n →
    s.portFree p →
    0 < n.toNat → dst.toNat < src.toNat + n.toNat → src.toNat < dst.toNat + n.toNat →
      exec i s = .next (({ s with fatal := true, fatalCode := 1 }).finish p ⟨.fatal, 1, 0⟩))

/-- R142 (which the spec derives from R141): the schedule touches exactly the offsets below `n`. -/
def Obligations.ScheduleCoversExactly : Prop :=
  ∀ n k : Nat, k < n ↔ ∃ m ∈ copySchedule n, m.off ≤ k ∧ k < m.off + m.width

/-- R140, R148: the fixed-timing schedule and one plain write leave the same storage, whatever it held (the canonical
form makes equal contents equal storage). -/
def Obligations.FixedCopyEqualsPlainWrite : Prop :=
  ∀ (d : Byte) (limit : Nat) (m : Memory) (dst : Nat) (v : List Byte), Memory.wf d limit m = true →
    copyFixed d m dst v = memWrite d m dst v

/-- R146: the number of loads, and of stores, is `4 * q + c(bucket)`, and the latency is the sum the rule gives. Both
are functions of `n` alone. -/
def Obligations.AccessCountIsPerBucket : Prop :=
  ∀ (cfg : Config) (n : Nat),
    (copySchedule n).length = 4 * (n / 128) +
      (if 64 ≤ n % 128 then 4 else if 4 ≤ n % 128 then 2 else if 1 ≤ n % 128 then 3 else 0) ∧
    copyAccesses n = (copySchedule n).length ∧
    copyLatency cfg n = (n / 128) * cfg.tBlock +
      cfg.tTail.getD (if 64 ≤ n % 128 then 0 else if 32 ≤ n % 128 then 1 else if 16 ≤ n % 128 then 2
        else if 8 ≤ n % 128 then 3 else if 4 ≤ n % 128 then 4 else if 1 ≤ n % 128 then 5 else 6) 0

/-! The converters (spec/41_converters.md). -/

/-- R162, R163: both 24-bit packs, byte by byte. -/
def Obligations.Pack24Layout : Prop :=
  ∀ (n : Nat) (bytes : List Byte), 4 * n ≤ bytes.length →
    (pack24Lsb n bytes).length = 3 * n ∧ (pack24Msb n bytes).length = 3 * n ∧
    (∀ i < n, ∀ k < 3, (pack24Lsb n bytes)[3 * i + k]? = bytes[4 * i + k]?) ∧
    (∀ i < n, ∀ k < 3, (pack24Msb n bytes)[3 * i + k]? = bytes[4 * i + 1 + k]?)

/-- R164: 16 bits to 32, byte by byte. -/
def Obligations.Up16Layout : Prop :=
  ∀ (n : Nat) (bytes : List Byte), 2 * n ≤ bytes.length →
    (up16to32 n bytes).length = 4 * n ∧
    ∀ i < n, (up16to32 n bytes)[4 * i]? = some 0 ∧ (up16to32 n bytes)[4 * i + 1]? = some 0 ∧
      (up16to32 n bytes)[4 * i + 2]? = bytes[2 * i]? ∧ (up16to32 n bytes)[4 * i + 3]? = bytes[2 * i + 1]?

/-- R166, R169, R170: planar to interleaved with both options, for every channel count; `blocks` holds the channels'
blocks. -/
def Obligations.DsdLayout : Prop :=
  ∀ (blocks : List (List Byte)) (g : Nat) (rev swap : Bool), (∀ b ∈ blocks, 4 * g ≤ b.length) →
    (dsdInterleave blocks g rev swap).length = 4 * blocks.length * g ∧
    ∀ j < g, ∀ c < blocks.length, ∀ k < 4,
      (dsdInterleave blocks g rev swap).getD ((j * blocks.length + c) * 4 + k) 0 =
        (let x := (blocks.getD c []).getD (4 * j + (if swap then 3 - k else k)) 0
         if rev then bitrev8 x else x)

/-- R168, R55: `bitrev8` reverses both nibbles through the table and swaps them; bit j of the result is bit 7 - j of b,
and twice is nothing. The table's entry i has at bit j the bit 3 - j of i. -/
def Obligations.BitReversal : Prop :=
  (∀ b : Byte, (bitrev8 b).toNat =
      16 * (nibbleRev.getD (b.toNat % 16) 0).toNat + (nibbleRev.getD (b.toNat / 16) 0).toNat ∧
    (∀ j < 8, (bitrev8 b).getLsbD j = b.getLsbD (7 - j)) ∧ bitrev8 (bitrev8 b) = b) ∧
  (nibbleRev.length = 16 ∧ ∀ i < 16, ∀ j < 4, (nibbleRev.getD i 0).getLsbD j = i.testBit (3 - j))

/-- R172: `bound` is the largest number of whole units that the input, the staging buffer and the free space all
hold, and its formula. -/
def Obligations.BoundIsLargestFit : Prop :=
  ∀ (len uin uout fr : Nat), 0 < uin → 0 < uout →
    bound len uin uout fr = min (len / uin) (min (65536 / uout) (fr / uout)) ∧
    ∀ k, k ≤ bound len uin uout fr ↔ (uin * k ≤ len ∧ uout * k ≤ 65536 ∧ uout * k ≤ fr)

/-! The ring (spec/42_ring.md). -/

/-- Occupancy and position arithmetic for every pair of positions (R25, R199; R25 marks the sum as derived): the masked
differences are remainders modulo SIZE, their sum is SIZE - 1, empty is equal positions, full is one slot short, and
advancing a position is addition modulo SIZE. -/
def Obligations.OccupancyArithmetic : Prop :=
  ∀ (s : State), s.sizeLog2.toNat ≤ 31 →
    (s.avail.toNat : Int) = ((s.wp.toNat : Int) - s.rp.toNat) % s.size ∧
    (s.free.toNat : Int) = ((s.rp.toNat : Int) - s.wp.toNat - 1) % s.size ∧
    s.avail.toNat + s.free.toNat = s.size - 1 ∧
    (s.wp.toNat < s.size → s.rp.toNat < s.size →
      (s.avail = 0 ↔ s.wp = s.rp) ∧ (s.free = 0 ↔ (s.wp.toNat + 1) % s.size = s.rp.toNat)) ∧
    (∀ (pos : Word) (n : Nat), (advancePos s.mask pos n).toNat = (pos.toNat + n) % s.size)

/-- RESIZE (R182, R12, R35): the size is the least power of two that holds the capacity, every byte of the new storage
is the silence byte, both positions are 0, the S24 state is reset, and nothing else changes. -/
def Obligations.ResizeMakesEmptyRing : Prop :=
  ∀ (capacity : Word) (silenceByte : Byte) (s : State), s.portFree .config → s.phaseK = .excl →
    ∃ (t : State) (k : Nat), exec (.resize capacity silenceByte) s = .next t ∧
      capacity.toNat ≤ 2 ^ k ∧ (∀ j, capacity.toNat ≤ 2 ^ j → k ≤ j) ∧ t.size = 2 ^ k ∧
      t = ({ s with sizeLog2 := t.sizeLog2, ring := t.ring, wp := 0, rp := 0, silence := silenceByte
                    s24Mode := .unknown, s24Hint := .none, s24Confirmed := false, s24SilentCount := 0 }).finish
            .config ⟨.done, 0, 0⟩ ∧
      (∀ o, t.ringByte o = silenceByte)

/-- CLEAR (R183, R35): as RESIZE without a change of size or silence byte. -/
def Obligations.ClearEmptiesRing : Prop :=
  ∀ (s : State), s.portFree .config → s.phaseK = .excl →
    ∃ t, exec .clear s = .next t ∧
      t = ({ s with ring := t.ring, wp := 0, rp := 0
                    s24Mode := .unknown, s24Hint := .none, s24Confirmed := false, s24SilentCount := 0 }).finish
            .config ⟨.done, 0, 0⟩ ∧
      (∀ o, t.ringByte o = s.silence)

/-- PUSH, step by step (R184): the count is the least of the length and the free space, 0 answers at once and changes
nothing; s2 puts the first n source bytes at the offsets `(w + k) mod SIZE` and leaves every other byte; s3 publishes
and answers n. -/
def Obligations.PushSteps : Prop :=
  ∀ (src len : Word) (s : State),
    (s.portFree .producer → s.phaseP = .guarded → min len.toNat s.free.toNat = 0 →
      exec (.push src len) s = .next (s.finish .producer ⟨.done, 0, 0⟩)) ∧
    (s.portFree .producer → s.phaseP = .guarded → 0 < min len.toNat s.free.toNat →
      exec (.push src len) s = .next (s.goTo (.push src len) (.move s.wp (min len.toNat s.free.toNat)))) ∧
    (∀ (w : Word) (n : Nat), s.atStage (.push src len) (.move w n) → w.toNat < s.size → n < s.size →
      s.hostRefusal .producer [rangeAt src n] [] = none →
      ∃ t, exec (.push src len) s = .next t ∧
        t = ({ s with ring := t.ring }).goTo (.push src len) (.publish w n) ∧
        (∀ k < n, t.ringByte ((w.toNat + k) % s.size) = s.hostByte (src.toNat + k)) ∧
        (∀ o, ¬ s.inRingRange w.toNat n o → t.ringByte o = s.ringByte o)) ∧
    (∀ (w : Word) (n : Nat), s.atStage (.push src len) (.publish w n) →
      exec (.push src len) s =
        .next (({ s with wp := advancePos s.mask w n }).finish .producer ⟨.done, BitVec.ofNat 32 n, 0⟩))

/-- POP, step by step (R186): as PUSH the other way; s2 writes the n bytes at the offsets `(r + k) mod SIZE` to HOST
memory and leaves every other HOST byte and the ring; s3 frees them and answers n. -/
def Obligations.PopSteps : Prop :=
  ∀ (dst len : Word) (s : State),
    (s.portFree .consumer → s.phaseC = .guarded → min len.toNat s.avail.toNat = 0 →
      exec (.pop dst len) s = .next (s.finish .consumer ⟨.done, 0, 0⟩)) ∧
    (s.portFree .consumer → s.phaseC = .guarded → 0 < min len.toNat s.avail.toNat →
      exec (.pop dst len) s = .next (s.goTo (.pop dst len) (.move s.rp (min len.toNat s.avail.toNat)))) ∧
    (∀ (r : Word) (n : Nat), s.atStage (.pop dst len) (.move r n) → r.toNat < s.size → n < s.size →
      s.hostRefusal .consumer [] [rangeAt dst n] = none →
      ∃ t, exec (.pop dst len) s = .next t ∧
        t = ({ s with host := t.host }).goTo (.pop dst len) (.publish r n) ∧
        (∀ k < n, t.hostByte (dst.toNat + k) = s.ringByte ((r.toNat + k) % s.size)) ∧
        (∀ a, a < dst.toNat ∨ dst.toNat + n ≤ a → t.hostByte a = s.hostByte a)) ∧
    (∀ (r : Word) (n : Nat), s.atStage (.pop dst len) (.publish r n) →
      exec (.pop dst len) s =
        .next (({ s with rp := advancePos s.mask r n }).finish .consumer ⟨.done, BitVec.ofNat 32 n, 0⟩))

/-- WRGN and RRGN (R188, R192): the contiguous bytes at the port's position are the least of the free (occupied) bytes
and the distance to the end; fewer than needed answers NOREGION and changes nothing, else the region is opened and
answered. A region just opened has no byte on the record of window writes (the model's own field, log 11). -/
def Obligations.RegionRequests : Prop :=
  (∀ (needed : Word) (s : State), s.portFree .producer → s.phaseP = .guarded →
    (min s.free.toNat (s.size - s.wp.toNat) < needed.toNat →
      exec (.wrgn needed) s = .next (s.finish .producer ⟨.noregion, 0, 0⟩)) ∧
    (needed.toNat ≤ min s.free.toNat (s.size - s.wp.toNat) →
      exec (.wrgn needed) s =
        .next (({ s with
            wregion := some ⟨s.wp, min s.free.toNat (s.size - s.wp.toNat)⟩, winWritten := []
            phaseP := .region }).finish .producer
              ⟨.done, s.wp, BitVec.ofNat 32 (min s.free.toNat (s.size - s.wp.toNat))⟩))) ∧
  (∀ (needed : Word) (s : State), s.portFree .consumer → s.phaseC = .guarded →
    (min s.avail.toNat (s.size - s.rp.toNat) < needed.toNat →
      exec (.rrgn needed) s = .next (s.finish .consumer ⟨.noregion, 0, 0⟩)) ∧
    (needed.toNat ≤ min s.avail.toNat (s.size - s.rp.toNat) →
      exec (.rrgn needed) s =
        .next (({ s with rregion := some ⟨s.rp, min s.avail.toNat (s.size - s.rp.toNat)⟩, phaseC := .region }).finish
          .consumer ⟨.done, s.rp, BitVec.ofNat 32 (min s.avail.toNat (s.size - s.rp.toNat))⟩)))

/-- WCOMMIT and RADV (R189, R193): the position moves on from the region's base by the count, the region closes. The
bytes a WCOMMIT publishes must have been written through the window (R325, U5); by which record that is told is the
model's choice (log 11): a window write adds its offsets to it, and the commit empties it. -/
def Obligations.RegionCommits : Prop :=
  (∀ (written : Word) (s : State) (g : Region), s.portFree .producer → s.phaseP = .region → s.wregion = some g →
    written.toNat ≤ g.len → (∀ k < written.toNat, g.base.toNat + k ∈ s.winWritten) →
      exec (.wcommit written) s =
        .next (({ s with
            wp := advancePos s.mask g.base written.toNat, wregion := none, winWritten := []
            phaseP := .guarded }).finish .producer ⟨.done, 0, 0⟩)) ∧
  (∀ (s t : State) (off : Word) (v : List Byte) (es : List Event), s.schedule = .winWrite off v :: es →
    step s = .next t →
      ∀ o, o ∈ t.winWritten ↔ o ∈ s.winWritten ∨ (off.toNat ≤ o ∧ o < off.toNat + v.length)) ∧
  (∀ (bytes : Word) (s : State) (g : Region), s.portFree .consumer → s.phaseC = .region → s.rregion = some g →
    bytes.toNat ≤ g.len →
      exec (.radv bytes) s =
        .next (({ s with rp := advancePos s.mask g.base bytes.toNat, rregion := none, phaseC := .guarded }).finish
          .consumer ⟨.done, 0, 0⟩))

/-- AVAIL and FREE (R196, R197): the masked differences of the positions, no state written; a data port needs an active
guard, K nothing. -/
def Obligations.SnapshotsReadPositions : Prop :=
  ∀ (p : Port) (s : State), s.portFree p → (p = .producer → s.phaseP ≠ .idle) → (p = .consumer → s.phaseC ≠ .idle) →
    exec (.avail p) s = .next (s.finish p ⟨.done, (s.wp - s.rp) &&& s.mask, 0⟩) ∧
    exec (.free p) s = .next (s.finish p ⟨.done, (s.rp - s.wp - 1) &&& s.mask, 0⟩)

/-- Ring window accesses (R190, R194, R283): inside the open region a write stores its bytes and a read returns them,
the latch set or not; outside, or with none open, both are refused. Where the bytes read stand, and the record of what
was written, are the model's own fields (logs 15, 11). -/
def Obligations.WindowAccesses : Prop :=
  (∀ (s : State) (off : Word) (v : List Byte) (es : List Event) (g : Region),
    s.schedule = .winWrite off v :: es → s.phaseP = .region → s.wregion = some g → g.base.toNat ≤ off.toNat →
    off.toNat + v.length ≤ g.base.toNat + g.len → g.base.toNat + g.len ≤ s.size →
      ∃ t, step s = .next t ∧ t = { s with ring := t.ring, winWritten := t.winWritten, schedule := es } ∧
        (∀ k < v.length, t.ringByte (off.toNat + k) = v.getD k 0) ∧
        (∀ o, o < off.toNat ∨ off.toNat + v.length ≤ o → t.ringByte o = s.ringByte o)) ∧
  (∀ (s : State) (off : Word) (v : List Byte) (es : List Event), s.schedule = .winWrite off v :: es →
    (s.phaseP ≠ .region ∨ ∀ g, s.wregion = some g →
      off.toNat < g.base.toNat ∨ g.base.toNat + g.len < off.toNat + v.length) →
      step s = .refused .windowOutside) ∧
  (∀ (s : State) (off n : Word) (es : List Event) (g : Region),
    s.schedule = .winRead off n :: es → s.phaseC = .region → s.rregion = some g → g.base.toNat ≤ off.toNat →
    off.toNat + n.toNat ≤ g.base.toNat + g.len → g.base.toNat + g.len ≤ s.size →
      step s = .next { s with window := (List.range n.toNat).map (fun k => s.ringByte (off.toNat + k))
                              schedule := es }) ∧
  (∀ (s : State) (off n : Word) (es : List Event), s.schedule = .winRead off n :: es →
    (s.phaseC ≠ .region ∨ ∀ g, s.rregion = some g →
      off.toNat < g.base.toNat ∨ g.base.toNat + g.len < off.toNat + n.toNat) →
      step s = .refused .windowOutside)

/-- A PUSH run to its end appends the first n bytes of its buffer to the queue, and a POP run to its end takes the
first n bytes of the queue into its buffer (R184, R186, R198 b, c). The zero-copy pairs do the same: a WCOMMIT appends
the region's bytes it commits, a RADV takes as many from the front (R189, R193); WRGN, a window write of `v` at the
position and WCOMMIT of its length append `v`; RRGN, a window read and RADV deliver the front of the queue and take it
(R188, R190, R192, R194). The record of written offsets is the model's (log 11). -/
def Obligations.PushAppendsPopTakes : Prop :=
  (∀ (src len : Word) (s : State), s.PositionsInv → s.portFree .producer → s.phaseP = .guarded →
    0 < min len.toNat s.free.toNat →
    s.hostRefusal .producer [rangeAt src (min len.toNat s.free.toNat)] [] = none →
      ∃ s1 s2 t, exec (.push src len) s = .next s1 ∧ exec (.push src len) s1 = .next s2 ∧
        exec (.push src len) s2 = .next t ∧
        t.contents = s.contents ++
          (List.range (min len.toNat s.free.toNat)).map (fun k => s.hostByte (src.toNat + k)) ∧
        t.laneP = ⟨s.laneP.stream, none, some ⟨.done, BitVec.ofNat 32 (min len.toNat s.free.toNat), 0⟩⟩) ∧
  (∀ (dst len : Word) (s : State), s.PositionsInv → s.portFree .consumer → s.phaseC = .guarded →
    0 < min len.toNat s.avail.toNat →
    s.hostRefusal .consumer [] [rangeAt dst (min len.toNat s.avail.toNat)] = none →
      ∃ s1 s2 t, exec (.pop dst len) s = .next s1 ∧ exec (.pop dst len) s1 = .next s2 ∧
        exec (.pop dst len) s2 = .next t ∧
        t.contents = s.contents.drop (min len.toNat s.avail.toNat) ∧
        (∀ k < min len.toNat s.avail.toNat, t.hostByte (dst.toNat + k) = s.contents.getD k 0) ∧
        t.laneC = ⟨s.laneC.stream, none, some ⟨.done, BitVec.ofNat 32 (min len.toNat s.avail.toNat), 0⟩⟩) ∧
  (∀ (written : Word) (s : State) (g : Region), s.PositionsInv → s.RegionInv → s.portFree .producer →
    s.phaseP = .region → s.wregion = some g → written.toNat ≤ g.len →
    (∀ k < written.toNat, g.base.toNat + k ∈ s.winWritten) →
      ∃ t, exec (.wcommit written) s = .next t ∧
        t.contents = s.contents ++ s.ringSeq g.base.toNat written.toNat ∧
        t.laneP = ⟨s.laneP.stream, none, some ⟨.done, 0, 0⟩⟩) ∧
  (∀ (bytes : Word) (s : State) (g : Region), s.PositionsInv → s.RegionInv → s.portFree .consumer →
    s.phaseC = .region → s.rregion = some g → bytes.toNat ≤ g.len →
      ∃ t, exec (.radv bytes) s = .next t ∧ t.contents = s.contents.drop bytes.toNat ∧
        t.laneC = ⟨s.laneC.stream, none, some ⟨.done, 0, 0⟩⟩) ∧
  (∀ (needed : Word) (v : List Byte) (s : State), s.PositionsInv → s.portFree .producer → s.phaseP = .guarded →
    needed.toNat ≤ min s.free.toNat (s.size - s.wp.toNat) → v.length ≤ min s.free.toNat (s.size - s.wp.toNat) →
      ∃ s1 s2 t, exec (.wrgn needed) s = .next s1 ∧ winWrite s.wp v s1 = .next s2 ∧
        exec (.wcommit (BitVec.ofNat 32 v.length)) s2 = .next t ∧ t.contents = s.contents ++ v) ∧
  (∀ (needed n : Word) (s : State), s.PositionsInv → s.portFree .consumer → s.phaseC = .guarded →
    needed.toNat ≤ min s.avail.toNat (s.size - s.rp.toNat) → n.toNat ≤ min s.avail.toNat (s.size - s.rp.toNat) →
      ∃ s1 s2 t, exec (.rrgn needed) s = .next s1 ∧ winRead s.rp n s1 = .next s2 ∧
        s2.window = s.contents.take n.toNat ∧ exec (.radv n) s2 = .next t ∧ t.contents = s.contents.drop n.toNat)

/-- The ring is a queue (R198 b, which the spec derives): in every state of the invariant, a step leaves the contents,
or appends bytes to them (a push's or a commit's last step), or takes bytes from their front (a pop or an advance), or
empties them (RESIZE, CLEAR, reset). Which bytes, PushAppendsPopTakes and ConvertingPushesAppend say. -/
def Obligations.RingIsQueue : Prop :=
  ∀ (s t : State), s.Inv → step s = .next t →
    t.contents = s.contents ∨
    (∃ v, t.contents = s.contents ++ v ∧
      ((∃ src len, s.nextCommand = some (.push src len)) ∨ (∃ n, s.nextCommand = some (.wcommit n)) ∨
        (∃ src len, s.nextCommand = some (.push24 src len)) ∨ (∃ src len, s.nextCommand = some (.push16 src len)) ∨
        (∃ src len ch rev swap, s.nextCommand = some (.pushdsd src len ch rev swap)))) ∨
    (∃ v, s.contents = v ++ t.contents ∧
      ((∃ dst len, s.nextCommand = some (.pop dst len)) ∨ (∃ n, s.nextCommand = some (.radv n)))) ∨
    (t.contents = [] ∧
      (s.resetNext ∨ s.nextCommand = some .clear ∨ ∃ c b, s.nextCommand = some (.resize c b)))

/-! The converting pushes and S24 detection (spec/43_convert_push.md). -/

/-- PUSH24, step by step (R221, R222): the count, the packed bytes in the staging buffer, their transfer into the ring,
the publication of 3n bytes and the answer 4n. What detection does to the S24 state is a statement of its own. -/
def Obligations.Push24Steps : Prop :=
  ∀ (src len : Word) (s : State),
    (s.portFree .producer → s.phaseP = .guarded →
      min (len.toNat / 4) (min 21845 (s.free.toNat / 3)) = 0 →
      exec (.push24 src len) s = .next (s.finish .producer ⟨.done, 0, 0⟩)) ∧
    (s.portFree .producer → s.phaseP = .guarded →
      0 < min (len.toNat / 4) (min 21845 (s.free.toNat / 3)) →
      exec (.push24 src len) s =
        .next (s.goTo (.push24 src len) (.move s.wp (min (len.toNat / 4) (min 21845 (s.free.toNat / 3)))))) ∧
    (∀ (w : Word) (n : Nat), s.atStage (.push24 src len) (.move w n) → 3 * n ≤ 65536 →
      s.hostRefusal .producer [rangeAt src (4 * n)] [] = none →
      ∃ t, exec (.push24 src len) s = .next t ∧
        t = ({ s with stg0 := t.stg0, s24Mode := t.s24Mode, s24Confirmed := t.s24Confirmed
                      s24SilentCount := t.s24SilentCount }).goTo (.push24 src len) (.transfer w n) ∧
        (∀ j < n, ∀ k < 3, t.stgByte .pack24 (3 * j + k) =
          s.hostByte (src.toNat + 4 * j + (if t.s24Mode = .msbAligned then k + 1 else k))) ∧
        (∀ o, 3 * n ≤ o → t.stgByte .pack24 o = s.stgByte .pack24 o)) ∧
    (∀ (w : Word) (n : Nat), s.atStage (.push24 src len) (.transfer w n) → 3 * n ≤ 65536 → w.toNat < s.size →
      3 * n < s.size →
      ∃ t, exec (.push24 src len) s = .next t ∧
        t = ({ s with ring := t.ring }).goTo (.push24 src len) (.publish w n) ∧
        (∀ k < 3 * n, t.ringByte ((w.toNat + k) % s.size) = s.stgByte .pack24 k) ∧
        (∀ o, ¬ s.inRingRange w.toNat (3 * n) o → t.ringByte o = s.ringByte o)) ∧
    (∀ (w : Word) (n : Nat), s.atStage (.push24 src len) (.publish w n) →
      exec (.push24 src len) s =
        .next (({ s with wp := advancePos s.mask w (3 * n) }).finish .producer ⟨.done, BitVec.ofNat 32 (4 * n), 0⟩))

/-- S24 detection (R224, R33, R221): at PUSH24's step s2. Confirmed, nothing of the S24 state changes; unconfirmed, the
first min(32, n) samples decide: high bytes all zero and low not, LSB; low and not high, MSB; both, silence, counted,
and resolved to the hint or LSB once the count passes 48000; neither, no change. The hint never changes. -/
def Obligations.S24Detection : Prop :=
  ∀ (src len w : Word) (n : Nat) (s t : State), s.atStage (.push24 src len) (.move w n) →
    s.s24SilentCount.toNat + n < 2 ^ 32 → exec (.push24 src len) s = .next t →
    let zl := ∀ j < min 32 n, s.hostByte (src.toNat + 4 * j) = 0
    let zh := ∀ j < min 32 n, s.hostByte (src.toNat + 4 * j + 3) = 0
    t.s24Hint = s.s24Hint ∧
    (s.s24Confirmed = true →
      t.s24Mode = s.s24Mode ∧ t.s24Confirmed = true ∧ t.s24SilentCount = s.s24SilentCount) ∧
    (s.s24Confirmed = false →
      (zh → ¬ zl → t.s24Mode = .lsbAligned ∧ t.s24Confirmed = true ∧ t.s24SilentCount = s.s24SilentCount) ∧
      (zl → ¬ zh → t.s24Mode = .msbAligned ∧ t.s24Confirmed = true ∧ t.s24SilentCount = s.s24SilentCount) ∧
      (zl → zh → t.s24SilentCount.toNat = s.s24SilentCount.toNat + n ∧
        (48000 < s.s24SilentCount.toNat + n → t.s24Confirmed = true ∧
          t.s24Mode = (match s.s24Hint with | .none => .lsbAligned | .lsb => .lsbAligned | .msb => .msbAligned)) ∧
        (s.s24SilentCount.toNat + n ≤ 48000 → t.s24Confirmed = false ∧
          t.s24Mode = (match s.s24Mode with
            | .unknown => .deferred | .deferred => .deferred | .lsbAligned => .lsbAligned
            | .msbAligned => .msbAligned))) ∧
      (¬ zl → ¬ zh → t.s24Mode = s.s24Mode ∧ t.s24Confirmed = false ∧ t.s24SilentCount = s.s24SilentCount))

/-- PUSH16, step by step (R230, R164). -/
def Obligations.Push16Steps : Prop :=
  ∀ (src len : Word) (s : State),
    (s.portFree .producer → s.phaseP = .guarded →
      min (len.toNat / 2) (min 16384 (s.free.toNat / 4)) = 0 →
      exec (.push16 src len) s = .next (s.finish .producer ⟨.done, 0, 0⟩)) ∧
    (s.portFree .producer → s.phaseP = .guarded →
      0 < min (len.toNat / 2) (min 16384 (s.free.toNat / 4)) →
      exec (.push16 src len) s =
        .next (s.goTo (.push16 src len) (.move s.wp (min (len.toNat / 2) (min 16384 (s.free.toNat / 4)))))) ∧
    (∀ (w : Word) (n : Nat), s.atStage (.push16 src len) (.move w n) → 4 * n ≤ 65536 →
      s.hostRefusal .producer [rangeAt src (2 * n)] [] = none →
      ∃ t, exec (.push16 src len) s = .next t ∧
        t = ({ s with stg1 := t.stg1 }).goTo (.push16 src len) (.transfer w n) ∧
        (∀ j < n, t.stgByte .up16 (4 * j) = 0 ∧ t.stgByte .up16 (4 * j + 1) = 0 ∧
          t.stgByte .up16 (4 * j + 2) = s.hostByte (src.toNat + 2 * j) ∧
          t.stgByte .up16 (4 * j + 3) = s.hostByte (src.toNat + 2 * j + 1)) ∧
        (∀ o, 4 * n ≤ o → t.stgByte .up16 o = s.stgByte .up16 o)) ∧
    (∀ (w : Word) (n : Nat), s.atStage (.push16 src len) (.transfer w n) → 4 * n ≤ 65536 → w.toNat < s.size →
      4 * n < s.size →
      ∃ t, exec (.push16 src len) s = .next t ∧
        t = ({ s with ring := t.ring }).goTo (.push16 src len) (.publish w n) ∧
        (∀ k < 4 * n, t.ringByte ((w.toNat + k) % s.size) = s.stgByte .up16 k) ∧
        (∀ o, ¬ s.inRingRange w.toNat (4 * n) o → t.ringByte o = s.ringByte o)) ∧
    (∀ (w : Word) (n : Nat), s.atStage (.push16 src len) (.publish w n) →
      exec (.push16 src len) s =
        .next (({ s with wp := advancePos s.mask w (4 * n) }).finish .producer ⟨.done, BitVec.ofNat 32 (2 * n), 0⟩))

/-- PUSHDSD, step by step (R236, R166): S is the block stride, g the chunk groups, and the staging buffer receives the
interleaved bytes with the options applied. -/
def Obligations.PushDsdSteps : Prop :=
  ∀ (src len : Word) (ch : Byte) (rev swap : Bool) (s : State), ch ≠ 0 →
    (s.portFree .producer → s.phaseP = .guarded →
      min (len.toNat / ch.toNat / 4) (min (16384 / ch.toNat) (s.free.toNat / (4 * ch.toNat))) = 0 →
      exec (.pushdsd src len ch rev swap) s = .next (s.finish .producer ⟨.done, 0, 0⟩)) ∧
    (s.portFree .producer → s.phaseP = .guarded →
      0 < min (len.toNat / ch.toNat / 4) (min (16384 / ch.toNat) (s.free.toNat / (4 * ch.toNat))) →
      exec (.pushdsd src len ch rev swap) s =
        .next (s.goTo (.pushdsd src len ch rev swap) (.move s.wp
          (min (len.toNat / ch.toNat / 4) (min (16384 / ch.toNat) (s.free.toNat / (4 * ch.toNat))))))) ∧
    (∀ (w : Word) (g : Nat), s.atStage (.pushdsd src len ch rev swap) (.move w g) → 4 * ch.toNat * g ≤ 65536 →
      s.hostRefusal .producer (planarRanges src (len.toNat / ch.toNat) (4 * g) ch.toNat) [] = none →
      ∃ t, exec (.pushdsd src len ch rev swap) s = .next t ∧
        t = ({ s with stg2 := t.stg2 }).goTo (.pushdsd src len ch rev swap) (.transfer w g) ∧
        (∀ j < g, ∀ c < ch.toNat, ∀ k < 4, t.stgByte .dsd ((j * ch.toNat + c) * 4 + k) =
          (let x := s.hostByte (src.toNat + c * (len.toNat / ch.toNat) + (4 * j + (if swap then 3 - k else k)))
           if rev then bitrev8 x else x)) ∧
        (∀ o, 4 * ch.toNat * g ≤ o → t.stgByte .dsd o = s.stgByte .dsd o)) ∧
    (∀ (w : Word) (g : Nat), s.atStage (.pushdsd src len ch rev swap) (.transfer w g) → 4 * ch.toNat * g ≤ 65536 →
      w.toNat < s.size → 4 * ch.toNat * g < s.size →
      ∃ t, exec (.pushdsd src len ch rev swap) s = .next t ∧
        t = ({ s with ring := t.ring }).goTo (.pushdsd src len ch rev swap) (.publish w g) ∧
        (∀ k < 4 * ch.toNat * g, t.ringByte ((w.toNat + k) % s.size) = s.stgByte .dsd k) ∧
        (∀ o, ¬ s.inRingRange w.toNat (4 * ch.toNat * g) o → t.ringByte o = s.ringByte o)) ∧
    (∀ (w : Word) (g : Nat), s.atStage (.pushdsd src len ch rev swap) (.publish w g) →
      exec (.pushdsd src len ch rev swap) s =
        .next (({ s with wp := advancePos s.mask w (4 * ch.toNat * g) }).finish .producer
          ⟨.done, BitVec.ofNat 32 (4 * ch.toNat * g), 0⟩))

/-- A converting push run to its end appends its converted bytes to the queue and answers the input bytes consumed
(R220, R221, R222, R230, R236). -/
def Obligations.ConvertingPushesAppend : Prop :=
  (∀ (src len : Word) (s : State), s.PositionsInv → s.portFree .producer → s.phaseP = .guarded →
    let n := bound len.toNat 4 3 s.free.toNat
    0 < n → s.hostRefusal .producer [rangeAt src (4 * n)] [] = none →
      ∃ s1 s2 s3 t, exec (.push24 src len) s = .next s1 ∧ exec (.push24 src len) s1 = .next s2 ∧
        exec (.push24 src len) s2 = .next s3 ∧ exec (.push24 src len) s3 = .next t ∧
        t.contents = s.contents ++ (let bytes := s.memReadHost src.toNat (4 * n)
          if t.s24Mode = .msbAligned then pack24Msb n bytes else pack24Lsb n bytes) ∧
        t.laneP = ⟨s.laneP.stream, none, some ⟨.done, BitVec.ofNat 32 (4 * n), 0⟩⟩) ∧
  (∀ (src len : Word) (s : State), s.PositionsInv → s.portFree .producer → s.phaseP = .guarded →
    let n := bound len.toNat 2 4 s.free.toNat
    0 < n → s.hostRefusal .producer [rangeAt src (2 * n)] [] = none →
      ∃ s1 s2 s3 t, exec (.push16 src len) s = .next s1 ∧ exec (.push16 src len) s1 = .next s2 ∧
        exec (.push16 src len) s2 = .next s3 ∧ exec (.push16 src len) s3 = .next t ∧
        t.contents = s.contents ++ up16to32 n (s.memReadHost src.toNat (2 * n)) ∧
        t.laneP = ⟨s.laneP.stream, none, some ⟨.done, BitVec.ofNat 32 (2 * n), 0⟩⟩) ∧
  (∀ (src len : Word) (ch : Byte) (rev swap : Bool) (s : State), s.PositionsInv → s.portFree .producer →
    s.phaseP = .guarded → ch ≠ 0 →
    let g := bound len.toNat (4 * ch.toNat) (4 * ch.toNat) s.free.toNat
    let stride := len.toNat / ch.toNat
    0 < g → s.hostRefusal .producer (planarRanges src stride (4 * g) ch.toNat) [] = none →
      ∃ s1 s2 s3 t, exec (.pushdsd src len ch rev swap) s = .next s1 ∧
        exec (.pushdsd src len ch rev swap) s1 = .next s2 ∧ exec (.pushdsd src len ch rev swap) s2 = .next s3 ∧
        exec (.pushdsd src len ch rev swap) s3 = .next t ∧
        t.contents = s.contents ++ dsdInterleave
          ((List.range ch.toNat).map (fun c => s.memReadHost (src.toNat + c * stride) (4 * g))) g rev swap ∧
        t.laneP = ⟨s.laneP.stream, none, some ⟨.done, BitVec.ofNat 32 (4 * ch.toNat * g), 0⟩⟩)

/-- S24HINT on P under a guard and on K under exclusive ownership (R227): the hint is stored, and an alignment is taken
as the mode from Unknown and Deferred only. -/
def Obligations.HintIsStored : Prop :=
  ∀ (p : Port) (hint : S24Hint) (s : State), s.portFree p →
    (p = .producer ∧ s.phaseP = .guarded) ∨ (p = .config ∧ s.phaseK = .excl) →
      exec (.s24hint p hint) s =
        .next (({ s with
          s24Hint := hint
          s24Mode := (match hint, s.s24Mode with
            | .lsb, .unknown => .lsbAligned
            | .lsb, .deferred => .lsbAligned
            | .msb, .unknown => .msbAligned
            | .msb, .deferred => .msbAligned
            | _, m => m) }).finish p ⟨.done, 0, 0⟩)

/-- R225: a confirmed alignment is left only through RESIZE or CLEAR (or reset). -/
def Obligations.ConfirmedAlignmentStays : Prop :=
  ∀ (s t : State), s.S24Inv → s.s24Confirmed = true → step s = .next t →
    (t.s24Confirmed = true ∧ t.s24Mode = s.s24Mode) ∨ s.resetNext ∨ s.nextCommand = some .clear ∨
      ∃ c b, s.nextCommand = some (.resize c b)

/-- R34, R33: the invariant of the S24 state is kept by every step. -/
def Obligations.S24InvariantKept : Prop :=
  ∀ (s t : State), s.LanesInv → s.S24Inv → step s = .next t → t.S24Inv

/-! The guards (spec/44_guards_format.md). -/

/-- GENTER, step by step, on either data port (R251, R95): g1 answers INACTIVE while a reconfiguration is in progress
and changes nothing, else g2 adds 1 to the counter, g3 reads the flag again, g4 undoes the increment and answers
INACTIVE, or registers and answers DONE. -/
def Obligations.GenterSteps : Prop :=
  ∀ (p : DataPort) (s : State),
    (s.portFree p.port → s.phase p = .idle → s.reconfig = true →
      exec (.genter p) s = .next (s.finish p.port ⟨.inactive, 0, 0⟩)) ∧
    (s.portFree p.port → s.phase p = .idle → s.reconfig = false →
      exec (.genter p) s = .next (s.goTo (.genter p) .g2)) ∧
    (s.atStage (.genter p) .g2 →
      exec (.genter p) s = .next (({ s with activeUsers := s.activeUsers + 1 }).goTo (.genter p) .g3)) ∧
    (s.atStage (.genter p) .g3 → exec (.genter p) s = .next (s.goTo (.genter p) (.g4 s.reconfig))) ∧
    (s.atStage (.genter p) (.g4 true) → exec (.genter p) s =
      .next (({ s with activeUsers := s.activeUsers - 1 }).finish p.port ⟨.inactive, 0, 0⟩)) ∧
    (s.atStage (.genter p) (.g4 false) → exec (.genter p) s =
      .next ((match p with
        | .producer => { s with regP := true, phaseP := .guarded }
        | .consumer => { s with regC := true, phaseC := .guarded }).finish p.port ⟨.done, 0, 0⟩))

/-- GEXIT on either data port (R254): the counter drops by 1 only if the port had registered; the port is idle and
unregistered after it. -/
def Obligations.GexitUndoesOwnRegistration : Prop :=
  ∀ (p : DataPort) (s : State), s.portFree p.port → s.phase p ≠ .region →
    exec (.gexit p) s = .next ((match p with
      | .producer => { s with
          activeUsers := if s.regP then s.activeUsers - 1 else s.activeUsers, regP := false, phaseP := .idle }
      | .consumer => { s with
          activeUsers := if s.regC then s.activeUsers - 1 else s.activeUsers, regC := false
          phaseC := .idle }).finish p.port ⟨.done, 0, 0⟩)

/-- RENTER, step by step, and REXIT (R256, R258, R260): r1 sets the flag; r2 grants exclusive ownership once the counter
is 0; REXIT clears the flag. That a poll which finds the counter not 0 is a step that changes nothing is the model's
choice (log 21): R258 has K make no step then. -/
def Obligations.ReconfigureGuardSteps : Prop :=
  ∀ (s : State),
    (s.portFree .config → s.phaseK = .idle → s.reconfig = false →
      exec .renter s = .next (({ s with reconfig := true, phaseK := .waiting }).goTo .renter .r2)) ∧
    (s.atStage .renter .r2 → s.activeUsers = 0 →
      exec .renter s = .next (({ s with phaseK := .excl }).finish .config ⟨.done, 0, 0⟩)) ∧
    (s.atStage .renter .r2 → s.activeUsers ≠ 0 → exec .renter s = .next s) ∧
    (s.portFree .config → s.phaseK = .excl →
      exec .rexit s = .next (({ s with reconfig := false, phaseK := .idle }).finish .config ⟨.done, 0, 0⟩))

/-- The guard unit's invariant is kept by every step (R40 to R43, R52, R259; the spec derives R43 and R259). -/
def Obligations.GuardInvariantKept : Prop :=
  ∀ (s t : State), s.LanesInv → s.GuardInv → step s = .next t → t.GuardInv

/-- R259 a, c (which the spec derives): after every step from a state of the lane and guard invariants, exclusive
ownership of K means that no data port is registered and both are idle, and the counter is at most 2. -/
def Obligations.MutualExclusion : Prop :=
  ∀ (s t : State), s.LanesInv → s.GuardInv → step s = .next t →
    (t.phaseK = .excl → ∀ p, t.reg p = false ∧ t.phase p = .idle) ∧ t.activeUsers.toNat ≤ 2

/-- R259 b's first half (which the spec derives): a step registers a data port only if that port's re-check has found
the flag clear, and while the flag is set no re-check finds it clear. -/
def Obligations.NoLateRegistration : Prop :=
  ∀ (s t : State) (p : DataPort), s.LanesInv → step s = .next t →
    (s.reg p = false → t.reg p = true → s.genterStage p = some (.g4 false)) ∧
    (s.reconfig = true → t.genterStage p = some (.g4 false) → s.genterStage p = some (.g4 false))

/-! The format state (spec/44_guards_format.md). -/

/-- SETFMT, step by step (R262): each of the first ten steps stores one field still to come, and whichever field that is
to be, some choice of the turn picks it; the last adds 1 to the generation counter and answers. Stores of a set of
fields, in any order, leave exactly those fields at their operands. R262 writes the ten stores as one labelled step in
no order; that they are ten steps, in the order the turns choose, is the model's choice (log 13). -/
def Obligations.SetfmtSteps : Prop :=
  (∀ (f : Format) (s : State), s.portFree .config → s.phaseK = .excl →
    ∃ x ∈ allFmtFields, exec (.setfmt f) s =
      .next (({ s with fmt := storeField s.fmt f x }).goTo (.setfmt f) (.fmtStore (allFmtFields.erase x)))) ∧
  (∀ (f : Format) (s : State) (x : FmtField), s.portFree .config → s.phaseK = .excl →
    ∃ c : Nat, exec (.setfmt f) { s with choice := c } =
      .next (({ s with choice := c, fmt := storeField s.fmt f x }).goTo (.setfmt f)
        (.fmtStore (allFmtFields.erase x)))) ∧
  (∀ (f : Format) (s : State) (pending : List FmtField), s.atStage (.setfmt f) (.fmtStore pending) → pending ≠ [] →
    ∃ x ∈ pending, exec (.setfmt f) s =
      .next (({ s with fmt := storeField s.fmt f x }).goTo (.setfmt f) (.fmtStore (pending.erase x)))) ∧
  (∀ (f : Format) (s : State) (pending : List FmtField) (x : FmtField),
    s.atStage (.setfmt f) (.fmtStore pending) → x ∈ pending →
    ∃ c : Nat, exec (.setfmt f) { s with choice := c } =
      .next (({ s with choice := c, fmt := storeField s.fmt f x }).goTo (.setfmt f) (.fmtStore (pending.erase x)))) ∧
  (∀ (f : Format) (s : State), s.atStage (.setfmt f) (.fmtStore []) →
    exec (.setfmt f) s = .next (({ s with fmtGen := s.fmtGen + 1 }).finish .config ⟨.done, 0, 0⟩)) ∧
  (∀ (old f : Format) (xs : List FmtField), xs.foldl (fun a x => storeField a f x) old =
    { rate := if .rate ∈ xs then f.rate else old.rate
      channels := if .channels ∈ xs then f.channels else old.channels
      bytesIn := if .bytesIn ∈ xs then f.bytesIn else old.bytesIn
      bytesOut := if .bytesOut ∈ xs then f.bytesOut else old.bytesOut
      dsd := if .dsd ∈ xs then f.dsd else old.dsd
      pack24 := if .pack24 ∈ xs then f.pack24 else old.pack24
      up16to32 := if .up16to32 ∈ xs then f.up16to32 else old.up16to32
      dsdBitrev := if .dsdBitrev ∈ xs then f.dsdBitrev else old.dsdBitrev
      dsdBswap := if .dsdBswap ∈ xs then f.dsdBswap else old.dsdBswap
      lowbitrate := if .lowbitrate ∈ xs then f.lowbitrate else old.lowbitrate })

/-- RDREG (R60, R265): for every register, in every phase and on every port, the response carries the value of R60's
table; nothing else changes. -/
def Obligations.RdregReadsTable : Prop :=
  ∀ (p : Port) (reg : RegNum) (s : State), s.portFree p → s.sizeLog2.toNat ≤ 31 →
    ∃ v0 v1 : Word, exec (.rdreg p reg) s = .next (s.finish p ⟨.done, v0, v1⟩) ∧
      v0.toNat + 2 ^ 32 * v1.toNat = s.registerValue reg ∧ (reg ≠ .fmtGen → v1 = 0)

/-- R46, R45: the generation counter is never decreased but by reset, and grows by 1 only at SETFMT's last step; the
format fields change only in SETFMT's steps. -/
def Obligations.FormatChangesOnlyBySetfmt : Prop :=
  ∀ (s t : State), step s = .next t →
    s.resetNext ∨ (t.fmtGen = s.fmtGen ∧ t.fmt = s.fmt) ∨
    ((∃ f, s.nextCommand = some (.setfmt f)) ∧
      (t.fmtGen = s.fmtGen ∨ (t.fmtGen = s.fmtGen + 1 ∧ t.fmt = s.fmt)))

/-! The fatal latch, violations and reset (spec/60_exceptions.md, spec/70_reset_and_hazards.md). -/

/-- R283, R285.1: while the latch is set, every descriptor on every port is answered (FATAL, FATAL_CODE, 0), whatever it
holds, and changes nothing. -/
def Obligations.LatchAnswersEveryCommand : Prop :=
  ∀ (s : State) (p : Port) (c : Nat) (es : List Event) (d : Descriptor) (ds : List Descriptor) (r : Option Response),
    s.schedule = .turn p c :: es → s.lane p = ⟨d :: ds, none, r⟩ → s.fatal = true →
      step s = .next (({ s with schedule := es, choice := c }).setLane p
        ⟨ds, none, some ⟨.fatal, BitVec.ofNat 32 s.fatalCode.toNat, 0⟩⟩)

/-- R284, R281: only reset clears the latch, and only a copy with overlapping ranges sets it. -/
def Obligations.LatchSetByOverlapClearedByReset : Prop :=
  ∀ (s t : State), s.LanesInv → step s = .next t →
    (s.fatal = true → s.resetNext ∨ (t.fatal = true ∧ t.fatalCode = s.fatalCode)) ∧
    (s.fatal = false → t.fatal = true → t.fatalCode = 1 ∧
      ∃ p dst src n, overlap dst src n = true ∧
        (s.nextCommand = some (.copyf p dst src n) ∨ s.nextCommand = some (.copyw p dst src n)))

/-- R62: every state element the spec gives a reset value has it at reset. -/
def Obligations.ResetValues : Prop :=
  State.reset.sizeLog2 = 0 ∧ State.reset.size = 1 ∧ State.reset.ringByte 0 = 0x00 ∧ State.reset.wp = 0 ∧
  State.reset.rp = 0 ∧ State.reset.silence = 0x00 ∧ State.reset.s24Mode = .unknown ∧ State.reset.s24Hint = .none ∧
  State.reset.s24Confirmed = false ∧ State.reset.s24SilentCount = 0 ∧ State.reset.reconfig = false ∧
  State.reset.activeUsers = 0 ∧ State.reset.regP = false ∧ State.reset.regC = false ∧
  State.reset.fmt.rate = 0 ∧ State.reset.fmt.channels = 0 ∧ State.reset.fmt.bytesIn = 0 ∧
  State.reset.fmt.bytesOut = 0 ∧ State.reset.fmt.dsd = false ∧ State.reset.fmt.pack24 = false ∧
  State.reset.fmt.up16to32 = false ∧ State.reset.fmt.dsdBitrev = false ∧ State.reset.fmt.dsdBswap = false ∧
  State.reset.fmt.lowbitrate = false ∧ State.reset.fmtGen = 0 ∧ State.reset.fatal = false ∧
  State.reset.fatalCode = 0 ∧ State.reset.phaseP = .idle ∧ State.reset.phaseC = .idle ∧ State.reset.phaseK = .idle ∧
  State.reset.wregion = none ∧ State.reset.rregion = none ∧ State.reset.avail = 0 ∧ State.reset.free = 0

/-- R310, R311: reset, between any two steps, puts every element of the block at its reset value, abandons commands in
flight without a response, and touches no HOST byte but those an abandoned command was writing. What the agents will
do next stays (log 16). -/
def Obligations.ResetEvent : Prop :=
  ∀ (s : State) (landed : List Nat) (es : List Event), s.schedule = .reset landed :: es →
    ∃ t, step s = .next t ∧
      t = { State.reset with
              cfg := s.cfg, host := t.host, schedule := es
              laneP := ⟨s.laneP.stream, none, none⟩, laneC := ⟨s.laneC.stream, none, none⟩
              laneK := ⟨s.laneK.stream, none, none⟩ } ∧
      (∀ a, t.hostByte a = s.hostByte a ∨ (a ∈ landed ∧ ∃ p cmd r, (s.lane p).inflight = some cmd ∧
        r ∈ cmd.hostWrites ∧ r.base ≤ a ∧ a < r.base + r.len))

/-- R292, R320 to R325, R333: a command in a phase R292 does not list for it has no step; it is refused by the name of
the obligation it breaks (log 10); so is a commit beyond the grant or of a byte the producer has not written through
the window (U5; the record of what it has written is log 11's). S24HINT on C is no command (R123): `exec`, which
decoding never asks for it, answers ILLEGAL (log 25). -/
def Obligations.ProtocolViolationsRefused : Prop :=
  (∀ (s : State) (src len n : Word) (ch : Byte) (rev swap : Bool) (hint : S24Hint), s.portFree .producer →
    s.phaseP = .idle →
      exec (.push src len) s = .refused .noActiveGuard ∧ exec (.push24 src len) s = .refused .noActiveGuard ∧
      exec (.push16 src len) s = .refused .noActiveGuard ∧
      exec (.pushdsd src len ch rev swap) s = .refused .noActiveGuard ∧
      exec (.wrgn n) s = .refused .noActiveGuard ∧ exec (.wcommit n) s = .refused .noActiveGuard ∧
      exec (.s24hint .producer hint) s = .refused .noActiveGuard ∧
      exec (.avail .producer) s = .refused .noActiveGuard ∧ exec (.free .producer) s = .refused .noActiveGuard) ∧
  (∀ (s : State) (src len n : Word) (ch : Byte) (rev swap : Bool) (hint : S24Hint), s.portFree .producer →
    s.phaseP = .region →
      exec (.push src len) s = .refused .regionOpen ∧ exec (.push24 src len) s = .refused .regionOpen ∧
      exec (.push16 src len) s = .refused .regionOpen ∧
      exec (.pushdsd src len ch rev swap) s = .refused .regionOpen ∧
      exec (.wrgn n) s = .refused .regionOpen ∧ exec (.s24hint .producer hint) s = .refused .regionOpen ∧
      exec (.gexit .producer) s = .refused .regionOpen ∧ exec (.genter .producer) s = .refused .nestedGuard ∧
      (∀ g, s.wregion = some g → g.len < n.toNat → exec (.wcommit n) s = .refused .grantExceeded) ∧
      (∀ g k, s.wregion = some g → n.toNat ≤ g.len → k < n.toNat → g.base.toNat + k ∉ s.winWritten →
        exec (.wcommit n) s = .refused .bytesNotWritten)) ∧
  (∀ (s : State) (n : Word), s.portFree .producer → s.phaseP = .guarded →
      exec (.wcommit n) s = .refused .noRegionOpen ∧ exec (.genter .producer) s = .refused .nestedGuard) ∧
  (∀ (s : State) (dst len n : Word), s.portFree .consumer → s.phaseC = .idle →
      exec (.pop dst len) s = .refused .noActiveGuard ∧ exec (.rrgn n) s = .refused .noActiveGuard ∧
      exec (.radv n) s = .refused .noActiveGuard ∧ exec (.avail .consumer) s = .refused .noActiveGuard ∧
      exec (.free .consumer) s = .refused .noActiveGuard) ∧
  (∀ (s : State) (dst len n : Word), s.portFree .consumer → s.phaseC = .region →
      exec (.pop dst len) s = .refused .regionOpen ∧ exec (.rrgn n) s = .refused .regionOpen ∧
      exec (.gexit .consumer) s = .refused .regionOpen ∧ exec (.genter .consumer) s = .refused .nestedGuard ∧
      (∀ g, s.rregion = some g → g.len < n.toNat → exec (.radv n) s = .refused .grantExceeded)) ∧
  (∀ (s : State) (n : Word), s.portFree .consumer → s.phaseC = .guarded →
      exec (.radv n) s = .refused .noRegionOpen ∧ exec (.genter .consumer) s = .refused .nestedGuard) ∧
  (∀ (s : State) (c : Word) (b : Byte) (hint : S24Hint) (f : Format), s.portFree .config → s.phaseK ≠ .excl →
      exec (.resize c b) s = .refused .notExclusive ∧ exec .clear s = .refused .notExclusive ∧
      exec .rexit s = .refused .notExclusive ∧ exec (.setfmt f) s = .refused .notExclusive ∧
      exec (.s24hint .config hint) s = .refused .notExclusive) ∧
  (∀ (s : State), s.portFree .config → s.phaseK ≠ .idle ∨ s.reconfig = true →
      exec .renter s = .refused .reconfigBusy) ∧
  (∀ (s : State) (hint : S24Hint), s.portFree .consumer →
      exec (.s24hint .consumer hint) s = .next (s.finish .consumer ⟨.illegal, 0, 0⟩))

/-- R72, R98, R329: the step of a command that accesses HOST memory is refused when a range passes 2^32, when the
platform does not back it, and when it meets a range of another port's command in flight, one of the two writing. -/
def Obligations.HostAccessRefused : Prop :=
  ∀ (s : State) (i : Instr) (st : Stage), s.atStage i st → (Command.mk i st).legal = true →
    st = .copyMove ∨ (∃ w n, st = .move w n) →
    ((∃ r ∈ (Command.mk i st).hostReads ++ (Command.mk i st).hostWrites, 2 ^ 32 < r.base + r.len) →
      exec i s = .refused .hostPastTop) ∧
    ((∀ r ∈ (Command.mk i st).hostReads ++ (Command.mk i st).hostWrites, r.base + r.len ≤ 2 ^ 32) →
      (∃ r ∈ (Command.mk i st).hostReads ++ (Command.mk i st).hostWrites, ∃ h ∈ s.cfg.hostHoles,
        rangesMeet r h = true) → exec i s = .refused .hostNotAdmitted) ∧
    ((∀ r ∈ (Command.mk i st).hostReads ++ (Command.mk i st).hostWrites, r.base + r.len ≤ 2 ^ 32) →
      (∀ r ∈ (Command.mk i st).hostReads ++ (Command.mk i st).hostWrites, ∀ h ∈ s.cfg.hostHoles,
        rangesMeet r h = false) →
      (∃ q c, q ≠ i.port ∧ (s.lane q).inflight = some c ∧ ∃ x y, rangesMeet x y = true ∧
        ((x ∈ (Command.mk i st).hostWrites ∧ y ∈ c.hostReads ++ c.hostWrites) ∨
          (x ∈ (Command.mk i st).hostReads ∧ y ∈ c.hostWrites))) →
      exec i s = .refused .hostRace)

/-- An agent's store into HOST memory (R72, R98): admitted, it changes its bytes and nothing else. It is refused when it
passes 2^32, when the platform does not back its range (log 4), and when it meets a range of any command in flight
(R329, log 17). -/
def Obligations.HostStoreWritesItsBytes : Prop :=
  ∀ (s : State) (addr : Word) (v : List Byte) (es : List Event), s.schedule = .hostStore addr v :: es →
    (2 ^ 32 < addr.toNat + v.length → step s = .refused .hostPastTop) ∧
    (addr.toNat + v.length ≤ 2 ^ 32 → (∃ h ∈ s.cfg.hostHoles, rangesMeet ⟨addr.toNat, v.length⟩ h = true) →
      step s = .refused .hostNotAdmitted) ∧
    (addr.toNat + v.length ≤ 2 ^ 32 → (∀ h ∈ s.cfg.hostHoles, rangesMeet ⟨addr.toNat, v.length⟩ h = false) →
      (∃ q c, (s.lane q).inflight = some c ∧ ∃ y ∈ c.hostReads ++ c.hostWrites,
        rangesMeet ⟨addr.toNat, v.length⟩ y = true) → step s = .refused .hostRace) ∧
    (addr.toNat + v.length ≤ 2 ^ 32 → (∀ h ∈ s.cfg.hostHoles, rangesMeet ⟨addr.toNat, v.length⟩ h = false) →
      (∀ q c, (s.lane q).inflight = some c → ∀ y ∈ c.hostReads ++ c.hostWrites,
        rangesMeet ⟨addr.toNat, v.length⟩ y = false) →
      ∃ t, step s = .next t ∧ t = { s with host := t.host, schedule := es } ∧
        (∀ k < v.length, t.hostByte (addr.toNat + k) = v.getD k 0) ∧
        (∀ a, a < addr.toNat ∨ addr.toNat + v.length ≤ a → t.hostByte a = s.hostByte a))

/-! The whole machine. -/

/-- R290's table: a port's turn writes only the state its agent may write, the producer's turn and window write only the
free area of the ring; K writes ring, S24 and format state only under exclusive ownership; HOST bytes are written only by
copies and POP. -/
def Obligations.AgentsWriteOnlyTheirOwnState : Prop :=
  (∀ (s t : State) (p : Port) (c : Nat) (es : List Event), s.LanesInv → s.GuardInv → s.TransferInv →
    s.schedule = .turn p c :: es → step s = .next t →
    (p = .producer → ∀ o, ¬ s.inRingRange s.wp.toNat s.free.toNat o → t.ringByte o = s.ringByte o) ∧
    (p = .producer → t = { s with
      ring := t.ring, wp := t.wp, stg0 := t.stg0, stg1 := t.stg1, stg2 := t.stg2, s24Mode := t.s24Mode
      s24Hint := t.s24Hint, s24Confirmed := t.s24Confirmed, s24SilentCount := t.s24SilentCount, regP := t.regP
      activeUsers := t.activeUsers, wregion := t.wregion, winWritten := t.winWritten, phaseP := t.phaseP
      host := t.host, fatal := t.fatal, fatalCode := t.fatalCode, laneP := t.laneP, choice := c, schedule := es }) ∧
    (p = .consumer → t = { s with
      rp := t.rp, regC := t.regC, activeUsers := t.activeUsers, rregion := t.rregion, phaseC := t.phaseC
      host := t.host, fatal := t.fatal, fatalCode := t.fatalCode, laneC := t.laneC, choice := c, schedule := es }) ∧
    (p = .config → t = { s with
      reconfig := t.reconfig, sizeLog2 := t.sizeLog2, ring := t.ring, wp := t.wp, rp := t.rp, silence := t.silence
      s24Mode := t.s24Mode, s24Hint := t.s24Hint, s24Confirmed := t.s24Confirmed
      s24SilentCount := t.s24SilentCount, fmt := t.fmt, fmtGen := t.fmtGen, phaseK := t.phaseK, host := t.host
      fatal := t.fatal, fatalCode := t.fatalCode, laneK := t.laneK, choice := c, schedule := es }) ∧
    (p = .config → s.phaseK ≠ .excl → t = { s with
      reconfig := t.reconfig, phaseK := t.phaseK, host := t.host, fatal := t.fatal, fatalCode := t.fatalCode
      laneK := t.laneK, choice := c, schedule := es }) ∧
    (t.host = s.host ∨ (∃ dst src n, s.nextCommand = some (.copyf p dst src n)) ∨
      (∃ dst src n, s.nextCommand = some (.copyw p dst src n)) ∨
      (∃ dst len, p = .consumer ∧ s.nextCommand = some (.pop dst len)))) ∧
  (∀ (s t : State) (off : Word) (v : List Byte) (es : List Event), s.RegionInv →
    s.schedule = .winWrite off v :: es → step s = .next t →
    (∀ o, ¬ s.inRingRange s.wp.toNat s.free.toNat o → t.ringByte o = s.ringByte o) ∧
    t = { s with ring := t.ring, winWritten := t.winWritten, schedule := es })

/-- R341: a command other than RENTER is answered in a bounded number of its own steps: its first step leaves at most 3
to come, and every further one leaves fewer. SETFMT's bound, 10 still to come, rests on the model's choice of ten
separate store steps (log 13), where R262 writes the ten stores as one labelled step. -/
def Obligations.BoundedExecution : Prop :=
  (∀ (i : Instr) (s t : State), s.portFree i.port → exec i s = .next t →
    t.portFree i.port ∨ ∃ st, t.atStage i st ∧
      (Command.mk i st).stepsLeft ≤ (match i with | .setfmt _ => 10 | _ => 3)) ∧
  (∀ (i : Instr) (st : Stage) (s t : State), i ≠ .renter → s.atStage i st → exec i s = .next t →
    t.portFree i.port ∨ ∃ st', t.atStage i st' ∧ (Command.mk i st').stepsLeft < (Command.mk i st).stepsLeft)

/-- Every byte storage keeps its canonical form, from every state that has it (the model's own representation, logs 5
to 7). -/
def Obligations.MemoryFormKept : Prop :=
  ∀ (s t : State), s.MemoryInv → step s = .next t → t.MemoryInv

/-- The invariant holds at reset. -/
def Obligations.InvAtReset : Prop := State.reset.Inv

/-- The invariant is kept by every step from every state that has it. -/
def Obligations.InvKept : Prop := ∀ (s t : State), s.Inv → step s = .next t → t.Inv

/-- From a state of the invariant no step faults: the block never reaches outside RING or STG (R22, R73). -/
def Obligations.InvRulesOutFaults : Prop := ∀ (s : State) (f : Fault), s.Inv → step s ≠ .fault f
end

