-- ==== Sys2Proof/Laws/Memory.lean ====
section
/-! SUPPORT. What byte storage does: a byte after a write, the canonical form kept by every operation, and that
canonical storage is determined by its bytes. -/

namespace Sys2Proof.Machine

/-- Address `a` is listed. -/
def listed (m : Memory) (a : Nat) : Bool := m.any (fun c => decide (c.1 = a))

theorem memGet_of_not_listed (d : Byte) (m : Memory) (a : Nat) (h : ∀ c ∈ m, c.1 ≠ a) : memGet d m a = d := by
  induction m with
  | nil => rfl
  | cons c cs ih =>
    have hc : c.1 ≠ a := h c (by simp)
    simp only [memGet, hc, if_false]
    exact ih (fun c' h' => h c' (by simp [h']))

theorem memGet_append (d : Byte) (m m' : Memory) (a : Nat) :
    memGet d (m ++ m') a = if ∃ c ∈ m, c.1 = a then memGet d m a else memGet d m' a := by
  induction m with
  | nil => simp
  | cons c cs ih =>
    by_cases hc : c.1 = a
    · simp [memGet, hc]
    · simp only [List.cons_append, memGet, hc, if_false, ih]
      by_cases h : ∃ c' ∈ cs, c'.1 = a
      · simp [h, hc]
      · simp [h, hc]

theorem memGet_filter (d : Byte) (m : Memory) (q : Nat → Bool) (a : Nat) :
    memGet d (m.filter (fun c => q c.1)) a = if q a then memGet d m a else d := by
  induction m with
  | nil => simp [memGet]
  | cons c cs ih =>
    by_cases hq : q c.1
    · rw [List.filter_cons_of_pos (by simpa using hq)]
      by_cases hc : c.1 = a
      · subst hc; simp [memGet, hq]
      · simp only [memGet, hc, if_false, ih]
    · rw [List.filter_cons_of_neg (by simpa using hq), ih]
      by_cases hc : c.1 = a
      · subst hc; simp [hq]
      · simp [memGet, hc]

theorem memCells_key (d : Byte) (bytes : List Byte) (a : Nat) (c : Host.Cell) (h : c ∈ memCells d a bytes) :
    a ≤ c.1 ∧ c.1 < a + bytes.length ∧ c.2 ≠ d := by
  induction bytes generalizing a with
  | nil => simp [memCells] at h
  | cons b bs ih =>
    by_cases hb : b = d
    · simp only [memCells, hb, if_true] at h
      obtain ⟨h1, h2, h3⟩ := ih (a + 1) h
      refine ⟨by omega, ?_, h3⟩
      simp only [List.length_cons]; omega
    · simp only [memCells, hb, if_false, List.mem_cons] at h
      rcases h with rfl | h
      · simp [hb]
      · obtain ⟨h1, h2, h3⟩ := ih (a + 1) h
        refine ⟨by omega, ?_, h3⟩
        simp only [List.length_cons]; omega

theorem memGet_memCells (d : Byte) (bytes : List Byte) (a i : Nat) (h : i < bytes.length) :
    memGet d (memCells d a bytes) (a + i) = bytes[i] := by
  induction bytes generalizing a i with
  | nil => simp at h
  | cons b bs ih =>
    cases i with
    | zero =>
      by_cases hb : b = d
      · simp only [memCells, hb, if_true, Nat.add_zero, List.getElem_cons_zero]
        apply memGet_of_not_listed
        intro c hc
        have := (memCells_key d bs (a + 1) c hc).1
        omega
      · simp [memCells, hb, memGet]
    | succ j =>
      have hj : j < bs.length := by simpa using h
      have e : a + (j + 1) = a + 1 + j := by omega
      by_cases hb : b = d
      · simp only [memCells, hb, if_true, List.getElem_cons_succ]
        rw [e]; exact ih (a + 1) j hj
      · simp only [memCells, hb, if_false, memGet, List.getElem_cons_succ]
        have : ¬ a = a + (j + 1) := by omega
        simp only [this, if_false]
        rw [e]; exact ih (a + 1) j hj

/-- A write leaves every address outside its range as it was. -/
theorem memGet_memWrite_out (d : Byte) (m : Memory) (a : Nat) (bytes : List Byte) (x : Nat)
    (h : x < a ∨ a + bytes.length ≤ x) : memGet d (memWrite d m a bytes) x = memGet d m x := by
  unfold memWrite
  have hmid : ∀ c ∈ memCells d a bytes, c.1 ≠ x := by
    intro c hc
    have := memCells_key d bytes a c hc
    omega
  rw [List.append_assoc, memGet_append]
  have hlow := memGet_filter d m (fun k => decide (k < a)) x
  have hhigh := memGet_filter d m (fun k => decide (a + bytes.length ≤ k)) x
  have hrest : memGet d (memCells d a bytes ++ m.filter (fun c => decide (a + bytes.length ≤ c.1))) x =
      memGet d (m.filter (fun c => decide (a + bytes.length ≤ c.1))) x := by
    rw [memGet_append, if_neg]
    rintro ⟨c, hc, hx⟩
    exact hmid c hc hx
  rw [hrest]
  rcases h with h | h
  · by_cases hex : ∃ c ∈ m.filter (fun c => decide (c.1 < a)), c.1 = x
    · rw [if_pos hex, hlow]; simp [h]
    · rw [if_neg hex, hhigh]
      have hx : ∀ c ∈ m, c.1 ≠ x := by
        intro c hc hcx
        exact hex ⟨c, by simp [hc]; omega, hcx⟩
      have hn : ¬ a + bytes.length ≤ x := by omega
      simp [hn, memGet_of_not_listed d m x hx]
  · have hex : ¬ ∃ c ∈ m.filter (fun c => decide (c.1 < a)), c.1 = x := by
      rintro ⟨c, hc, hcx⟩
      simp at hc
      omega
    rw [if_neg hex, hhigh]; simp [h]

/-- A write puts its `i`-th byte at the `i`-th address of its range. -/
theorem memGet_memWrite_in (d : Byte) (m : Memory) (a : Nat) (bytes : List Byte) (i : Nat) (h : i < bytes.length) :
    memGet d (memWrite d m a bytes) (a + i) = bytes[i] := by
  unfold memWrite
  rw [List.append_assoc, memGet_append, if_neg, memGet_append]
  · by_cases hex : ∃ c ∈ memCells d a bytes, c.1 = a + i
    · rw [if_pos hex, memGet_memCells d bytes a i h]
    · rw [if_neg hex]
      have h1 := memGet_memCells d bytes a i h
      rw [memGet_of_not_listed d _ _ (fun c hc hx => hex ⟨c, hc, hx⟩)] at h1
      rw [← h1]
      apply memGet_of_not_listed
      intro c hc
      simp at hc
      omega
  · rintro ⟨c, hc, hcx⟩
    simp at hc
    omega

theorem memGet_memWrite (d : Byte) (m : Memory) (a : Nat) (bytes : List Byte) (x : Nat) :
    memGet d (memWrite d m a bytes) x =
      if a ≤ x ∧ x < a + bytes.length then bytes.getD (x - a) 0 else memGet d m x := by
  by_cases h : a ≤ x ∧ x < a + bytes.length
  · have hi : x - a < bytes.length := by omega
    have := memGet_memWrite_in d m a bytes (x - a) hi
    rw [show a + (x - a) = x by omega] at this
    simp [h, this, hi]
  · rw [if_neg h]
    exact memGet_memWrite_out d m a bytes x (by omega)

/-! Reading a range. -/

@[simp] theorem memRead_length (d : Byte) (m : Memory) (a n : Nat) : (memRead d m a n).length = n := by
  induction n generalizing a with
  | zero => rfl
  | succ n ih => simp [memRead, ih]

theorem memRead_getElem (d : Byte) (m : Memory) (a n i : Nat) (h : i < (memRead d m a n).length) :
    (memRead d m a n)[i] = memGet d m (a + i) := by
  induction n generalizing a i with
  | zero => simp [memRead] at h
  | succ n ih =>
    cases i with
    | zero => simp [memRead]
    | succ j =>
      have hj : j < (memRead d m (a + 1) n).length := by simp at h ⊢; omega
      have := ih (a + 1) j hj
      simp only [memRead, List.getElem_cons_succ]
      rw [this, show a + 1 + j = a + (j + 1) by omega]

theorem memRead_eq_map (d : Byte) (m : Memory) (a n : Nat) :
    memRead d m a n = (List.range n).map (fun i => memGet d m (a + i)) := by
  apply List.ext_getElem
  · simp
  · intro i h1 h2
    simp [memRead_getElem]

/-! The canonical form. -/

theorem Memory.wf_iff (d : Byte) (limit : Nat) (m : Memory) :
    Memory.wf d limit m = true ↔ m.Pairwise (fun x y => x.1 < y.1) ∧ ∀ c ∈ m, c.1 < limit ∧ c.2 ≠ d := by
  simp [Memory.wf]

@[simp] theorem Memory.wf_nil (d : Byte) (limit : Nat) : Memory.wf d limit [] = true := rfl

theorem memCells_sorted (d : Byte) (bytes : List Byte) (a : Nat) :
    (memCells d a bytes).Pairwise (fun x y => x.1 < y.1) := by
  induction bytes generalizing a with
  | nil => simp [memCells]
  | cons b bs ih =>
    by_cases hb : b = d
    · simp only [memCells, hb, if_true]; exact ih (a + 1)
    · simp only [memCells, hb, if_false, List.pairwise_cons]
      refine ⟨fun c hc => ?_, ih (a + 1)⟩
      have := (memCells_key d bs (a + 1) c hc).1
      show a < c.1
      omega

/-- A write inside the space keeps the canonical form. -/
theorem memWrite_wf (d : Byte) (limit : Nat) (m : Memory) (a : Nat) (bytes : List Byte)
    (hm : Memory.wf d limit m = true) (h : a + bytes.length ≤ limit) :
    Memory.wf d limit (memWrite d m a bytes) = true := by
  rw [Memory.wf_iff] at hm ⊢
  obtain ⟨hs, hk⟩ := hm
  refine ⟨?_, ?_⟩
  · unfold memWrite
    rw [List.append_assoc, List.pairwise_append, List.pairwise_append]
    refine ⟨hs.filter _, ⟨memCells_sorted d bytes a, hs.filter _, ?_⟩, ?_⟩
    · intro x hx y hy
      have h1 := memCells_key d bytes a x hx
      simp at hy
      omega
    · intro x hx y hy
      simp at hx
      rw [List.mem_append] at hy
      rcases hy with hy | hy
      · have h1 := memCells_key d bytes a y hy
        omega
      · simp at hy
        omega
  · intro c hc
    unfold memWrite at hc
    rw [List.mem_append, List.mem_append] at hc
    rcases hc with (hc | hc) | hc
    · exact hk c (List.mem_filter.mp hc).1
    · have h1 := memCells_key d bytes a c hc
      exact ⟨by omega, h1.2.2⟩
    · exact hk c (List.mem_filter.mp hc).1

/-- Canonical storage with the same bytes is the same data. -/
theorem Memory.ext_of_wf (d : Byte) (limit : Nat) (m m' : Memory) (h : Memory.wf d limit m = true)
    (h' : Memory.wf d limit m' = true) (hg : ∀ a, memGet d m a = memGet d m' a) : m = m' := by
  rw [Memory.wf_iff] at h h'
  obtain ⟨hs, hk⟩ := h
  obtain ⟨hs', hk'⟩ := h'
  induction m generalizing m' with
  | nil =>
    cases m' with
    | nil => rfl
    | cons c cs =>
      have := hg c.1
      simp [memGet] at this
      exact absurd this.symm (hk' c (by simp)).2
  | cons c cs ih =>
    cases m' with
    | nil =>
      have := hg c.1
      simp [memGet] at this
      exact absurd this (hk c (by simp)).2
    | cons c' cs' =>
      rw [List.pairwise_cons] at hs hs'
      have key : c.1 = c'.1 := by
        rcases Nat.lt_trichotomy c.1 c'.1 with hlt | heq | hgt
        · have h1 := hg c.1
          rw [show memGet d (c :: cs) c.1 = c.2 by simp [memGet]] at h1
          rw [memGet_of_not_listed d (c' :: cs') c.1] at h1
          · exact absurd h1 (hk c (by simp)).2
          · intro x hx
            rcases List.mem_cons.mp hx with rfl | hx
            · omega
            · have := hs'.1 x hx; omega
        · exact heq
        · have h1 := hg c'.1
          rw [show memGet d (c' :: cs') c'.1 = c'.2 by simp [memGet]] at h1
          rw [memGet_of_not_listed d (c :: cs) c'.1] at h1
          · exact absurd h1.symm (hk' c' (by simp)).2
          · intro x hx
            rcases List.mem_cons.mp hx with rfl | hx
            · omega
            · have := hs.1 x hx; omega
      have val : c.2 = c'.2 := by
        have h1 := hg c.1
        simpa [memGet, key] using h1
      have hcc : c = c' := Prod.ext key val
      subst hcc
      congr 1
      refine ih cs' (fun a => ?_) hs.2 (fun x hx => hk x (by simp [hx])) hs'.2 (fun x hx => hk' x (by simp [hx]))
      by_cases ha : c.1 = a
      · subst ha
        rw [memGet_of_not_listed d cs, memGet_of_not_listed d cs']
        · intro x hx; have := hs'.1 x hx; omega
        · intro x hx; have := hs.1 x hx; omega
      · have h1 := hg a
        simpa [memGet, ha] using h1

/-- Landing some of a command's bytes inside the space keeps the canonical form. -/
theorem landBytes_wf (landed : List Nat) (v : List Byte) (a : Nat) (m : Memory)
    (hm : Memory.wf hostFill hostSize m = true) (h : a + v.length ≤ hostSize) :
    Memory.wf hostFill hostSize (landBytes landed a v m) = true := by
  induction v generalizing a m with
  | nil => exact hm
  | cons b bs ih =>
    simp only [List.length_cons] at h
    simp only [landBytes]
    apply ih
    · split
      · exact memWrite_wf _ _ _ _ _ hm (by simp; omega)
      · exact hm
    · omega

/-- Each byte after a partial write is the new one where it has landed, else the old one (U21). -/
theorem memGet_landBytes (landed : List Nat) (v : List Byte) (a : Nat) (m : Memory) (x : Nat) :
    memGet hostFill (landBytes landed a v m) x =
      if a ≤ x ∧ x < a + v.length ∧ x ∈ landed then v.getD (x - a) 0 else memGet hostFill m x := by
  induction v generalizing a m with
  | nil => simp [landBytes]; omega
  | cons b bs ih =>
    simp only [landBytes, ih, List.length_cons]
    by_cases h1 : a + 1 ≤ x ∧ x < a + 1 + bs.length ∧ x ∈ landed
    · have h2 : a ≤ x ∧ x < a + (bs.length + 1) ∧ x ∈ landed := ⟨by omega, by omega, h1.2.2⟩
      rw [if_pos h1, if_pos h2, show x - a = (x - (a + 1)) + 1 by omega, List.getD_cons_succ]
    · rw [if_neg h1]
      by_cases hx : x = a
      · subst hx
        by_cases hl : x ∈ landed
        · rw [if_pos hl, if_pos ⟨le_refl _, by omega, hl⟩]
          have := memGet_memWrite_in hostFill m x [b] 0 (by simp)
          simpa using this
        · rw [if_neg hl, if_neg (by tauto)]
      · have h2 : ¬ (a ≤ x ∧ x < a + (bs.length + 1) ∧ x ∈ landed) := by
          rintro ⟨p, q, r⟩
          exact h1 ⟨by omega, by omega, r⟩
        rw [if_neg h2]
        by_cases hl : a ∈ landed
        · rw [if_pos hl]
          apply memGet_memWrite_out
          simp
          omega
        · rw [if_neg hl]

end Sys2Proof.Machine
end

