-- ==== Sys2Proof/Laws/State.lean ====
section
/-! SUPPORT. What each named update of the state leaves: one lemma per field it does not write, and the field it does
write where that is one line. No later proof unfolds an update. -/

namespace Sys2Proof.Machine

/-! `setLane`. -/

@[simp] theorem State.setLane_cfg (s : State) (p : Port) (l : Lane) : (s.setLane p l).cfg = s.cfg := by cases p <;> rfl
@[simp] theorem State.setLane_sizeLog2 (s : State) (p : Port) (l : Lane) : (s.setLane p l).sizeLog2 = s.sizeLog2 := by cases p <;> rfl
@[simp] theorem State.setLane_ring (s : State) (p : Port) (l : Lane) : (s.setLane p l).ring = s.ring := by cases p <;> rfl
@[simp] theorem State.setLane_wp (s : State) (p : Port) (l : Lane) : (s.setLane p l).wp = s.wp := by cases p <;> rfl
@[simp] theorem State.setLane_rp (s : State) (p : Port) (l : Lane) : (s.setLane p l).rp = s.rp := by cases p <;> rfl
@[simp] theorem State.setLane_silence (s : State) (p : Port) (l : Lane) : (s.setLane p l).silence = s.silence := by cases p <;> rfl
@[simp] theorem State.setLane_stg0 (s : State) (p : Port) (l : Lane) : (s.setLane p l).stg0 = s.stg0 := by cases p <;> rfl
@[simp] theorem State.setLane_stg1 (s : State) (p : Port) (l : Lane) : (s.setLane p l).stg1 = s.stg1 := by cases p <;> rfl
@[simp] theorem State.setLane_stg2 (s : State) (p : Port) (l : Lane) : (s.setLane p l).stg2 = s.stg2 := by cases p <;> rfl
@[simp] theorem State.setLane_s24Mode (s : State) (p : Port) (l : Lane) : (s.setLane p l).s24Mode = s.s24Mode := by cases p <;> rfl
@[simp] theorem State.setLane_s24Hint (s : State) (p : Port) (l : Lane) : (s.setLane p l).s24Hint = s.s24Hint := by cases p <;> rfl
@[simp] theorem State.setLane_s24Confirmed (s : State) (p : Port) (l : Lane) : (s.setLane p l).s24Confirmed = s.s24Confirmed := by cases p <;> rfl
@[simp] theorem State.setLane_s24SilentCount (s : State) (p : Port) (l : Lane) : (s.setLane p l).s24SilentCount = s.s24SilentCount := by cases p <;> rfl
@[simp] theorem State.setLane_reconfig (s : State) (p : Port) (l : Lane) : (s.setLane p l).reconfig = s.reconfig := by cases p <;> rfl
@[simp] theorem State.setLane_activeUsers (s : State) (p : Port) (l : Lane) : (s.setLane p l).activeUsers = s.activeUsers := by cases p <;> rfl
@[simp] theorem State.setLane_regP (s : State) (p : Port) (l : Lane) : (s.setLane p l).regP = s.regP := by cases p <;> rfl
@[simp] theorem State.setLane_regC (s : State) (p : Port) (l : Lane) : (s.setLane p l).regC = s.regC := by cases p <;> rfl
@[simp] theorem State.setLane_fmt (s : State) (p : Port) (l : Lane) : (s.setLane p l).fmt = s.fmt := by cases p <;> rfl
@[simp] theorem State.setLane_fmtGen (s : State) (p : Port) (l : Lane) : (s.setLane p l).fmtGen = s.fmtGen := by cases p <;> rfl
@[simp] theorem State.setLane_fatal (s : State) (p : Port) (l : Lane) : (s.setLane p l).fatal = s.fatal := by cases p <;> rfl
@[simp] theorem State.setLane_fatalCode (s : State) (p : Port) (l : Lane) : (s.setLane p l).fatalCode = s.fatalCode := by cases p <;> rfl
@[simp] theorem State.setLane_phaseP (s : State) (p : Port) (l : Lane) : (s.setLane p l).phaseP = s.phaseP := by cases p <;> rfl
@[simp] theorem State.setLane_phaseC (s : State) (p : Port) (l : Lane) : (s.setLane p l).phaseC = s.phaseC := by cases p <;> rfl
@[simp] theorem State.setLane_phaseK (s : State) (p : Port) (l : Lane) : (s.setLane p l).phaseK = s.phaseK := by cases p <;> rfl
@[simp] theorem State.setLane_wregion (s : State) (p : Port) (l : Lane) : (s.setLane p l).wregion = s.wregion := by cases p <;> rfl
@[simp] theorem State.setLane_rregion (s : State) (p : Port) (l : Lane) : (s.setLane p l).rregion = s.rregion := by cases p <;> rfl
@[simp] theorem State.setLane_winWritten (s : State) (p : Port) (l : Lane) : (s.setLane p l).winWritten = s.winWritten := by cases p <;> rfl
@[simp] theorem State.setLane_host (s : State) (p : Port) (l : Lane) : (s.setLane p l).host = s.host := by cases p <;> rfl
@[simp] theorem State.setLane_window (s : State) (p : Port) (l : Lane) : (s.setLane p l).window = s.window := by cases p <;> rfl
@[simp] theorem State.setLane_choice (s : State) (p : Port) (l : Lane) : (s.setLane p l).choice = s.choice := by cases p <;> rfl
@[simp] theorem State.setLane_schedule (s : State) (p : Port) (l : Lane) : (s.setLane p l).schedule = s.schedule := by cases p <;> rfl
@[simp] theorem State.setLane_size (s : State) (p : Port) (l : Lane) : (s.setLane p l).size = s.size := by cases p <;> rfl
@[simp] theorem State.setLane_mask (s : State) (p : Port) (l : Lane) : (s.setLane p l).mask = s.mask := by cases p <;> rfl
@[simp] theorem State.setLane_avail (s : State) (p : Port) (l : Lane) : (s.setLane p l).avail = s.avail := by cases p <;> rfl
@[simp] theorem State.setLane_free (s : State) (p : Port) (l : Lane) : (s.setLane p l).free = s.free := by cases p <;> rfl
@[simp] theorem State.setLane_ringByte (s : State) (p : Port) (l : Lane) (o : Nat) : (s.setLane p l).ringByte o = s.ringByte o := by cases p <;> rfl
@[simp] theorem State.setLane_hostByte (s : State) (p : Port) (l : Lane) (a : Nat) : (s.setLane p l).hostByte a = s.hostByte a := by cases p <;> rfl
@[simp] theorem State.setLane_stgByte (s : State) (p : Port) (l : Lane) (j : StgBuf) (o : Nat) : (s.setLane p l).stgByte j o = s.stgByte j o := by cases p <;> rfl
@[simp] theorem State.setLane_stg (s : State) (p : Port) (l : Lane) (j : StgBuf) : (s.setLane p l).stg j = s.stg j := by cases p <;> rfl
@[simp] theorem State.setLane_phase (s : State) (p : Port) (l : Lane) (q : DataPort) : (s.setLane p l).phase q = s.phase q := by cases p <;> rfl
@[simp] theorem State.setLane_reg (s : State) (p : Port) (l : Lane) (q : DataPort) : (s.setLane p l).reg q = s.reg q := by cases p <;> rfl

/-! `finish`. -/

@[simp] theorem State.finish_cfg (s : State) (p : Port) (r : Response) : (s.finish p r).cfg = s.cfg := by cases p <;> rfl
@[simp] theorem State.finish_sizeLog2 (s : State) (p : Port) (r : Response) : (s.finish p r).sizeLog2 = s.sizeLog2 := by cases p <;> rfl
@[simp] theorem State.finish_ring (s : State) (p : Port) (r : Response) : (s.finish p r).ring = s.ring := by cases p <;> rfl
@[simp] theorem State.finish_wp (s : State) (p : Port) (r : Response) : (s.finish p r).wp = s.wp := by cases p <;> rfl
@[simp] theorem State.finish_rp (s : State) (p : Port) (r : Response) : (s.finish p r).rp = s.rp := by cases p <;> rfl
@[simp] theorem State.finish_silence (s : State) (p : Port) (r : Response) : (s.finish p r).silence = s.silence := by cases p <;> rfl
@[simp] theorem State.finish_stg0 (s : State) (p : Port) (r : Response) : (s.finish p r).stg0 = s.stg0 := by cases p <;> rfl
@[simp] theorem State.finish_stg1 (s : State) (p : Port) (r : Response) : (s.finish p r).stg1 = s.stg1 := by cases p <;> rfl
@[simp] theorem State.finish_stg2 (s : State) (p : Port) (r : Response) : (s.finish p r).stg2 = s.stg2 := by cases p <;> rfl
@[simp] theorem State.finish_s24Mode (s : State) (p : Port) (r : Response) : (s.finish p r).s24Mode = s.s24Mode := by cases p <;> rfl
@[simp] theorem State.finish_s24Hint (s : State) (p : Port) (r : Response) : (s.finish p r).s24Hint = s.s24Hint := by cases p <;> rfl
@[simp] theorem State.finish_s24Confirmed (s : State) (p : Port) (r : Response) : (s.finish p r).s24Confirmed = s.s24Confirmed := by cases p <;> rfl
@[simp] theorem State.finish_s24SilentCount (s : State) (p : Port) (r : Response) : (s.finish p r).s24SilentCount = s.s24SilentCount := by cases p <;> rfl
@[simp] theorem State.finish_reconfig (s : State) (p : Port) (r : Response) : (s.finish p r).reconfig = s.reconfig := by cases p <;> rfl
@[simp] theorem State.finish_activeUsers (s : State) (p : Port) (r : Response) : (s.finish p r).activeUsers = s.activeUsers := by cases p <;> rfl
@[simp] theorem State.finish_regP (s : State) (p : Port) (r : Response) : (s.finish p r).regP = s.regP := by cases p <;> rfl
@[simp] theorem State.finish_regC (s : State) (p : Port) (r : Response) : (s.finish p r).regC = s.regC := by cases p <;> rfl
@[simp] theorem State.finish_fmt (s : State) (p : Port) (r : Response) : (s.finish p r).fmt = s.fmt := by cases p <;> rfl
@[simp] theorem State.finish_fmtGen (s : State) (p : Port) (r : Response) : (s.finish p r).fmtGen = s.fmtGen := by cases p <;> rfl
@[simp] theorem State.finish_fatal (s : State) (p : Port) (r : Response) : (s.finish p r).fatal = s.fatal := by cases p <;> rfl
@[simp] theorem State.finish_fatalCode (s : State) (p : Port) (r : Response) : (s.finish p r).fatalCode = s.fatalCode := by cases p <;> rfl
@[simp] theorem State.finish_phaseP (s : State) (p : Port) (r : Response) : (s.finish p r).phaseP = s.phaseP := by cases p <;> rfl
@[simp] theorem State.finish_phaseC (s : State) (p : Port) (r : Response) : (s.finish p r).phaseC = s.phaseC := by cases p <;> rfl
@[simp] theorem State.finish_phaseK (s : State) (p : Port) (r : Response) : (s.finish p r).phaseK = s.phaseK := by cases p <;> rfl
@[simp] theorem State.finish_wregion (s : State) (p : Port) (r : Response) : (s.finish p r).wregion = s.wregion := by cases p <;> rfl
@[simp] theorem State.finish_rregion (s : State) (p : Port) (r : Response) : (s.finish p r).rregion = s.rregion := by cases p <;> rfl
@[simp] theorem State.finish_winWritten (s : State) (p : Port) (r : Response) : (s.finish p r).winWritten = s.winWritten := by cases p <;> rfl
@[simp] theorem State.finish_host (s : State) (p : Port) (r : Response) : (s.finish p r).host = s.host := by cases p <;> rfl
@[simp] theorem State.finish_window (s : State) (p : Port) (r : Response) : (s.finish p r).window = s.window := by cases p <;> rfl
@[simp] theorem State.finish_choice (s : State) (p : Port) (r : Response) : (s.finish p r).choice = s.choice := by cases p <;> rfl
@[simp] theorem State.finish_schedule (s : State) (p : Port) (r : Response) : (s.finish p r).schedule = s.schedule := by cases p <;> rfl
@[simp] theorem State.finish_size (s : State) (p : Port) (r : Response) : (s.finish p r).size = s.size := by cases p <;> rfl
@[simp] theorem State.finish_mask (s : State) (p : Port) (r : Response) : (s.finish p r).mask = s.mask := by cases p <;> rfl
@[simp] theorem State.finish_avail (s : State) (p : Port) (r : Response) : (s.finish p r).avail = s.avail := by cases p <;> rfl
@[simp] theorem State.finish_free (s : State) (p : Port) (r : Response) : (s.finish p r).free = s.free := by cases p <;> rfl
@[simp] theorem State.finish_ringByte (s : State) (p : Port) (r : Response) (o : Nat) : (s.finish p r).ringByte o = s.ringByte o := by cases p <;> rfl
@[simp] theorem State.finish_hostByte (s : State) (p : Port) (r : Response) (a : Nat) : (s.finish p r).hostByte a = s.hostByte a := by cases p <;> rfl
@[simp] theorem State.finish_stgByte (s : State) (p : Port) (r : Response) (j : StgBuf) (o : Nat) : (s.finish p r).stgByte j o = s.stgByte j o := by cases p <;> rfl
@[simp] theorem State.finish_stg (s : State) (p : Port) (r : Response) (j : StgBuf) : (s.finish p r).stg j = s.stg j := by cases p <;> rfl
@[simp] theorem State.finish_phase (s : State) (p : Port) (r : Response) (q : DataPort) : (s.finish p r).phase q = s.phase q := by cases p <;> rfl
@[simp] theorem State.finish_reg (s : State) (p : Port) (r : Response) (q : DataPort) : (s.finish p r).reg q = s.reg q := by cases p <;> rfl

/-! `goTo`. -/

@[simp] theorem State.goTo_cfg (s : State) (i : Instr) (st : Stage) : (s.goTo i st).cfg = s.cfg := by unfold State.goTo; cases i.port <;> rfl
@[simp] theorem State.goTo_sizeLog2 (s : State) (i : Instr) (st : Stage) : (s.goTo i st).sizeLog2 = s.sizeLog2 := by unfold State.goTo; cases i.port <;> rfl
@[simp] theorem State.goTo_ring (s : State) (i : Instr) (st : Stage) : (s.goTo i st).ring = s.ring := by unfold State.goTo; cases i.port <;> rfl
@[simp] theorem State.goTo_wp (s : State) (i : Instr) (st : Stage) : (s.goTo i st).wp = s.wp := by unfold State.goTo; cases i.port <;> rfl
@[simp] theorem State.goTo_rp (s : State) (i : Instr) (st : Stage) : (s.goTo i st).rp = s.rp := by unfold State.goTo; cases i.port <;> rfl
@[simp] theorem State.goTo_silence (s : State) (i : Instr) (st : Stage) : (s.goTo i st).silence = s.silence := by unfold State.goTo; cases i.port <;> rfl
@[simp] theorem State.goTo_stg0 (s : State) (i : Instr) (st : Stage) : (s.goTo i st).stg0 = s.stg0 := by unfold State.goTo; cases i.port <;> rfl
@[simp] theorem State.goTo_stg1 (s : State) (i : Instr) (st : Stage) : (s.goTo i st).stg1 = s.stg1 := by unfold State.goTo; cases i.port <;> rfl
@[simp] theorem State.goTo_stg2 (s : State) (i : Instr) (st : Stage) : (s.goTo i st).stg2 = s.stg2 := by unfold State.goTo; cases i.port <;> rfl
@[simp] theorem State.goTo_s24Mode (s : State) (i : Instr) (st : Stage) : (s.goTo i st).s24Mode = s.s24Mode := by unfold State.goTo; cases i.port <;> rfl
@[simp] theorem State.goTo_s24Hint (s : State) (i : Instr) (st : Stage) : (s.goTo i st).s24Hint = s.s24Hint := by unfold State.goTo; cases i.port <;> rfl
@[simp] theorem State.goTo_s24Confirmed (s : State) (i : Instr) (st : Stage) : (s.goTo i st).s24Confirmed = s.s24Confirmed := by unfold State.goTo; cases i.port <;> rfl
@[simp] theorem State.goTo_s24SilentCount (s : State) (i : Instr) (st : Stage) : (s.goTo i st).s24SilentCount = s.s24SilentCount := by unfold State.goTo; cases i.port <;> rfl
@[simp] theorem State.goTo_reconfig (s : State) (i : Instr) (st : Stage) : (s.goTo i st).reconfig = s.reconfig := by unfold State.goTo; cases i.port <;> rfl
@[simp] theorem State.goTo_activeUsers (s : State) (i : Instr) (st : Stage) : (s.goTo i st).activeUsers = s.activeUsers := by unfold State.goTo; cases i.port <;> rfl
@[simp] theorem State.goTo_regP (s : State) (i : Instr) (st : Stage) : (s.goTo i st).regP = s.regP := by unfold State.goTo; cases i.port <;> rfl
@[simp] theorem State.goTo_regC (s : State) (i : Instr) (st : Stage) : (s.goTo i st).regC = s.regC := by unfold State.goTo; cases i.port <;> rfl
@[simp] theorem State.goTo_fmt (s : State) (i : Instr) (st : Stage) : (s.goTo i st).fmt = s.fmt := by unfold State.goTo; cases i.port <;> rfl
@[simp] theorem State.goTo_fmtGen (s : State) (i : Instr) (st : Stage) : (s.goTo i st).fmtGen = s.fmtGen := by unfold State.goTo; cases i.port <;> rfl
@[simp] theorem State.goTo_fatal (s : State) (i : Instr) (st : Stage) : (s.goTo i st).fatal = s.fatal := by unfold State.goTo; cases i.port <;> rfl
@[simp] theorem State.goTo_fatalCode (s : State) (i : Instr) (st : Stage) : (s.goTo i st).fatalCode = s.fatalCode := by unfold State.goTo; cases i.port <;> rfl
@[simp] theorem State.goTo_phaseP (s : State) (i : Instr) (st : Stage) : (s.goTo i st).phaseP = s.phaseP := by unfold State.goTo; cases i.port <;> rfl
@[simp] theorem State.goTo_phaseC (s : State) (i : Instr) (st : Stage) : (s.goTo i st).phaseC = s.phaseC := by unfold State.goTo; cases i.port <;> rfl
@[simp] theorem State.goTo_phaseK (s : State) (i : Instr) (st : Stage) : (s.goTo i st).phaseK = s.phaseK := by unfold State.goTo; cases i.port <;> rfl
@[simp] theorem State.goTo_wregion (s : State) (i : Instr) (st : Stage) : (s.goTo i st).wregion = s.wregion := by unfold State.goTo; cases i.port <;> rfl
@[simp] theorem State.goTo_rregion (s : State) (i : Instr) (st : Stage) : (s.goTo i st).rregion = s.rregion := by unfold State.goTo; cases i.port <;> rfl
@[simp] theorem State.goTo_winWritten (s : State) (i : Instr) (st : Stage) : (s.goTo i st).winWritten = s.winWritten := by unfold State.goTo; cases i.port <;> rfl
@[simp] theorem State.goTo_host (s : State) (i : Instr) (st : Stage) : (s.goTo i st).host = s.host := by unfold State.goTo; cases i.port <;> rfl
@[simp] theorem State.goTo_window (s : State) (i : Instr) (st : Stage) : (s.goTo i st).window = s.window := by unfold State.goTo; cases i.port <;> rfl
@[simp] theorem State.goTo_choice (s : State) (i : Instr) (st : Stage) : (s.goTo i st).choice = s.choice := by unfold State.goTo; cases i.port <;> rfl
@[simp] theorem State.goTo_schedule (s : State) (i : Instr) (st : Stage) : (s.goTo i st).schedule = s.schedule := by unfold State.goTo; cases i.port <;> rfl
@[simp] theorem State.goTo_size (s : State) (i : Instr) (st : Stage) : (s.goTo i st).size = s.size := by unfold State.goTo; cases i.port <;> rfl
@[simp] theorem State.goTo_mask (s : State) (i : Instr) (st : Stage) : (s.goTo i st).mask = s.mask := by unfold State.goTo; cases i.port <;> rfl
@[simp] theorem State.goTo_avail (s : State) (i : Instr) (st : Stage) : (s.goTo i st).avail = s.avail := by unfold State.goTo; cases i.port <;> rfl
@[simp] theorem State.goTo_free (s : State) (i : Instr) (st : Stage) : (s.goTo i st).free = s.free := by unfold State.goTo; cases i.port <;> rfl
@[simp] theorem State.goTo_ringByte (s : State) (i : Instr) (st : Stage) (o : Nat) : (s.goTo i st).ringByte o = s.ringByte o := by unfold State.goTo; cases i.port <;> rfl
@[simp] theorem State.goTo_hostByte (s : State) (i : Instr) (st : Stage) (a : Nat) : (s.goTo i st).hostByte a = s.hostByte a := by unfold State.goTo; cases i.port <;> rfl
@[simp] theorem State.goTo_stgByte (s : State) (i : Instr) (st : Stage) (j : StgBuf) (o : Nat) : (s.goTo i st).stgByte j o = s.stgByte j o := by unfold State.goTo; cases i.port <;> rfl
@[simp] theorem State.goTo_stg (s : State) (i : Instr) (st : Stage) (j : StgBuf) : (s.goTo i st).stg j = s.stg j := by unfold State.goTo; cases i.port <;> rfl
@[simp] theorem State.goTo_phase (s : State) (i : Instr) (st : Stage) (q : DataPort) : (s.goTo i st).phase q = s.phase q := by unfold State.goTo; cases i.port <;> rfl
@[simp] theorem State.goTo_reg (s : State) (i : Instr) (st : Stage) (q : DataPort) : (s.goTo i st).reg q = s.reg q := by unfold State.goTo; cases i.port <;> rfl

/-! `setGuard`. -/

@[simp] theorem State.setGuard_cfg (s : State) (p : DataPort) (b : Bool) (f : DataPhase) : (s.setGuard p b f).cfg = s.cfg := by cases p <;> rfl
@[simp] theorem State.setGuard_sizeLog2 (s : State) (p : DataPort) (b : Bool) (f : DataPhase) : (s.setGuard p b f).sizeLog2 = s.sizeLog2 := by cases p <;> rfl
@[simp] theorem State.setGuard_ring (s : State) (p : DataPort) (b : Bool) (f : DataPhase) : (s.setGuard p b f).ring = s.ring := by cases p <;> rfl
@[simp] theorem State.setGuard_wp (s : State) (p : DataPort) (b : Bool) (f : DataPhase) : (s.setGuard p b f).wp = s.wp := by cases p <;> rfl
@[simp] theorem State.setGuard_rp (s : State) (p : DataPort) (b : Bool) (f : DataPhase) : (s.setGuard p b f).rp = s.rp := by cases p <;> rfl
@[simp] theorem State.setGuard_silence (s : State) (p : DataPort) (b : Bool) (f : DataPhase) : (s.setGuard p b f).silence = s.silence := by cases p <;> rfl
@[simp] theorem State.setGuard_stg0 (s : State) (p : DataPort) (b : Bool) (f : DataPhase) : (s.setGuard p b f).stg0 = s.stg0 := by cases p <;> rfl
@[simp] theorem State.setGuard_stg1 (s : State) (p : DataPort) (b : Bool) (f : DataPhase) : (s.setGuard p b f).stg1 = s.stg1 := by cases p <;> rfl
@[simp] theorem State.setGuard_stg2 (s : State) (p : DataPort) (b : Bool) (f : DataPhase) : (s.setGuard p b f).stg2 = s.stg2 := by cases p <;> rfl
@[simp] theorem State.setGuard_s24Mode (s : State) (p : DataPort) (b : Bool) (f : DataPhase) : (s.setGuard p b f).s24Mode = s.s24Mode := by cases p <;> rfl
@[simp] theorem State.setGuard_s24Hint (s : State) (p : DataPort) (b : Bool) (f : DataPhase) : (s.setGuard p b f).s24Hint = s.s24Hint := by cases p <;> rfl
@[simp] theorem State.setGuard_s24Confirmed (s : State) (p : DataPort) (b : Bool) (f : DataPhase) : (s.setGuard p b f).s24Confirmed = s.s24Confirmed := by cases p <;> rfl
@[simp] theorem State.setGuard_s24SilentCount (s : State) (p : DataPort) (b : Bool) (f : DataPhase) : (s.setGuard p b f).s24SilentCount = s.s24SilentCount := by cases p <;> rfl
@[simp] theorem State.setGuard_reconfig (s : State) (p : DataPort) (b : Bool) (f : DataPhase) : (s.setGuard p b f).reconfig = s.reconfig := by cases p <;> rfl
@[simp] theorem State.setGuard_activeUsers (s : State) (p : DataPort) (b : Bool) (f : DataPhase) : (s.setGuard p b f).activeUsers = s.activeUsers := by cases p <;> rfl
@[simp] theorem State.setGuard_fmt (s : State) (p : DataPort) (b : Bool) (f : DataPhase) : (s.setGuard p b f).fmt = s.fmt := by cases p <;> rfl
@[simp] theorem State.setGuard_fmtGen (s : State) (p : DataPort) (b : Bool) (f : DataPhase) : (s.setGuard p b f).fmtGen = s.fmtGen := by cases p <;> rfl
@[simp] theorem State.setGuard_fatal (s : State) (p : DataPort) (b : Bool) (f : DataPhase) : (s.setGuard p b f).fatal = s.fatal := by cases p <;> rfl
@[simp] theorem State.setGuard_fatalCode (s : State) (p : DataPort) (b : Bool) (f : DataPhase) : (s.setGuard p b f).fatalCode = s.fatalCode := by cases p <;> rfl
@[simp] theorem State.setGuard_phaseK (s : State) (p : DataPort) (b : Bool) (f : DataPhase) : (s.setGuard p b f).phaseK = s.phaseK := by cases p <;> rfl
@[simp] theorem State.setGuard_wregion (s : State) (p : DataPort) (b : Bool) (f : DataPhase) : (s.setGuard p b f).wregion = s.wregion := by cases p <;> rfl
@[simp] theorem State.setGuard_rregion (s : State) (p : DataPort) (b : Bool) (f : DataPhase) : (s.setGuard p b f).rregion = s.rregion := by cases p <;> rfl
@[simp] theorem State.setGuard_winWritten (s : State) (p : DataPort) (b : Bool) (f : DataPhase) : (s.setGuard p b f).winWritten = s.winWritten := by cases p <;> rfl
@[simp] theorem State.setGuard_host (s : State) (p : DataPort) (b : Bool) (f : DataPhase) : (s.setGuard p b f).host = s.host := by cases p <;> rfl
@[simp] theorem State.setGuard_laneP (s : State) (p : DataPort) (b : Bool) (f : DataPhase) : (s.setGuard p b f).laneP = s.laneP := by cases p <;> rfl
@[simp] theorem State.setGuard_laneC (s : State) (p : DataPort) (b : Bool) (f : DataPhase) : (s.setGuard p b f).laneC = s.laneC := by cases p <;> rfl
@[simp] theorem State.setGuard_laneK (s : State) (p : DataPort) (b : Bool) (f : DataPhase) : (s.setGuard p b f).laneK = s.laneK := by cases p <;> rfl
@[simp] theorem State.setGuard_window (s : State) (p : DataPort) (b : Bool) (f : DataPhase) : (s.setGuard p b f).window = s.window := by cases p <;> rfl
@[simp] theorem State.setGuard_choice (s : State) (p : DataPort) (b : Bool) (f : DataPhase) : (s.setGuard p b f).choice = s.choice := by cases p <;> rfl
@[simp] theorem State.setGuard_schedule (s : State) (p : DataPort) (b : Bool) (f : DataPhase) : (s.setGuard p b f).schedule = s.schedule := by cases p <;> rfl
@[simp] theorem State.setGuard_size (s : State) (p : DataPort) (b : Bool) (f : DataPhase) : (s.setGuard p b f).size = s.size := by cases p <;> rfl
@[simp] theorem State.setGuard_mask (s : State) (p : DataPort) (b : Bool) (f : DataPhase) : (s.setGuard p b f).mask = s.mask := by cases p <;> rfl
@[simp] theorem State.setGuard_avail (s : State) (p : DataPort) (b : Bool) (f : DataPhase) : (s.setGuard p b f).avail = s.avail := by cases p <;> rfl
@[simp] theorem State.setGuard_free (s : State) (p : DataPort) (b : Bool) (f : DataPhase) : (s.setGuard p b f).free = s.free := by cases p <;> rfl
@[simp] theorem State.setGuard_ringByte (s : State) (p : DataPort) (b : Bool) (f : DataPhase) (o : Nat) : (s.setGuard p b f).ringByte o = s.ringByte o := by cases p <;> rfl
@[simp] theorem State.setGuard_hostByte (s : State) (p : DataPort) (b : Bool) (f : DataPhase) (a : Nat) : (s.setGuard p b f).hostByte a = s.hostByte a := by cases p <;> rfl
@[simp] theorem State.setGuard_stgByte (s : State) (p : DataPort) (b : Bool) (f : DataPhase) (j : StgBuf) (o : Nat) : (s.setGuard p b f).stgByte j o = s.stgByte j o := by cases p <;> rfl
@[simp] theorem State.setGuard_stg (s : State) (p : DataPort) (b : Bool) (f : DataPhase) (j : StgBuf) : (s.setGuard p b f).stg j = s.stg j := by cases p <;> rfl
@[simp] theorem State.setGuard_lane (s : State) (p : DataPort) (b : Bool) (f : DataPhase) (q : Port) : (s.setGuard p b f).lane q = s.lane q := by cases p <;> rfl

/-! `setStg`. -/

@[simp] theorem State.setStg_cfg (s : State) (j : StgBuf) (m : Memory) : (s.setStg j m).cfg = s.cfg := by cases j <;> rfl
@[simp] theorem State.setStg_sizeLog2 (s : State) (j : StgBuf) (m : Memory) : (s.setStg j m).sizeLog2 = s.sizeLog2 := by cases j <;> rfl
@[simp] theorem State.setStg_ring (s : State) (j : StgBuf) (m : Memory) : (s.setStg j m).ring = s.ring := by cases j <;> rfl
@[simp] theorem State.setStg_wp (s : State) (j : StgBuf) (m : Memory) : (s.setStg j m).wp = s.wp := by cases j <;> rfl
@[simp] theorem State.setStg_rp (s : State) (j : StgBuf) (m : Memory) : (s.setStg j m).rp = s.rp := by cases j <;> rfl
@[simp] theorem State.setStg_silence (s : State) (j : StgBuf) (m : Memory) : (s.setStg j m).silence = s.silence := by cases j <;> rfl
@[simp] theorem State.setStg_s24Mode (s : State) (j : StgBuf) (m : Memory) : (s.setStg j m).s24Mode = s.s24Mode := by cases j <;> rfl
@[simp] theorem State.setStg_s24Hint (s : State) (j : StgBuf) (m : Memory) : (s.setStg j m).s24Hint = s.s24Hint := by cases j <;> rfl
@[simp] theorem State.setStg_s24Confirmed (s : State) (j : StgBuf) (m : Memory) : (s.setStg j m).s24Confirmed = s.s24Confirmed := by cases j <;> rfl
@[simp] theorem State.setStg_s24SilentCount (s : State) (j : StgBuf) (m : Memory) : (s.setStg j m).s24SilentCount = s.s24SilentCount := by cases j <;> rfl
@[simp] theorem State.setStg_reconfig (s : State) (j : StgBuf) (m : Memory) : (s.setStg j m).reconfig = s.reconfig := by cases j <;> rfl
@[simp] theorem State.setStg_activeUsers (s : State) (j : StgBuf) (m : Memory) : (s.setStg j m).activeUsers = s.activeUsers := by cases j <;> rfl
@[simp] theorem State.setStg_regP (s : State) (j : StgBuf) (m : Memory) : (s.setStg j m).regP = s.regP := by cases j <;> rfl
@[simp] theorem State.setStg_regC (s : State) (j : StgBuf) (m : Memory) : (s.setStg j m).regC = s.regC := by cases j <;> rfl
@[simp] theorem State.setStg_fmt (s : State) (j : StgBuf) (m : Memory) : (s.setStg j m).fmt = s.fmt := by cases j <;> rfl
@[simp] theorem State.setStg_fmtGen (s : State) (j : StgBuf) (m : Memory) : (s.setStg j m).fmtGen = s.fmtGen := by cases j <;> rfl
@[simp] theorem State.setStg_fatal (s : State) (j : StgBuf) (m : Memory) : (s.setStg j m).fatal = s.fatal := by cases j <;> rfl
@[simp] theorem State.setStg_fatalCode (s : State) (j : StgBuf) (m : Memory) : (s.setStg j m).fatalCode = s.fatalCode := by cases j <;> rfl
@[simp] theorem State.setStg_phaseP (s : State) (j : StgBuf) (m : Memory) : (s.setStg j m).phaseP = s.phaseP := by cases j <;> rfl
@[simp] theorem State.setStg_phaseC (s : State) (j : StgBuf) (m : Memory) : (s.setStg j m).phaseC = s.phaseC := by cases j <;> rfl
@[simp] theorem State.setStg_phaseK (s : State) (j : StgBuf) (m : Memory) : (s.setStg j m).phaseK = s.phaseK := by cases j <;> rfl
@[simp] theorem State.setStg_wregion (s : State) (j : StgBuf) (m : Memory) : (s.setStg j m).wregion = s.wregion := by cases j <;> rfl
@[simp] theorem State.setStg_rregion (s : State) (j : StgBuf) (m : Memory) : (s.setStg j m).rregion = s.rregion := by cases j <;> rfl
@[simp] theorem State.setStg_winWritten (s : State) (j : StgBuf) (m : Memory) : (s.setStg j m).winWritten = s.winWritten := by cases j <;> rfl
@[simp] theorem State.setStg_host (s : State) (j : StgBuf) (m : Memory) : (s.setStg j m).host = s.host := by cases j <;> rfl
@[simp] theorem State.setStg_laneP (s : State) (j : StgBuf) (m : Memory) : (s.setStg j m).laneP = s.laneP := by cases j <;> rfl
@[simp] theorem State.setStg_laneC (s : State) (j : StgBuf) (m : Memory) : (s.setStg j m).laneC = s.laneC := by cases j <;> rfl
@[simp] theorem State.setStg_laneK (s : State) (j : StgBuf) (m : Memory) : (s.setStg j m).laneK = s.laneK := by cases j <;> rfl
@[simp] theorem State.setStg_window (s : State) (j : StgBuf) (m : Memory) : (s.setStg j m).window = s.window := by cases j <;> rfl
@[simp] theorem State.setStg_choice (s : State) (j : StgBuf) (m : Memory) : (s.setStg j m).choice = s.choice := by cases j <;> rfl
@[simp] theorem State.setStg_schedule (s : State) (j : StgBuf) (m : Memory) : (s.setStg j m).schedule = s.schedule := by cases j <;> rfl
@[simp] theorem State.setStg_size (s : State) (j : StgBuf) (m : Memory) : (s.setStg j m).size = s.size := by cases j <;> rfl
@[simp] theorem State.setStg_mask (s : State) (j : StgBuf) (m : Memory) : (s.setStg j m).mask = s.mask := by cases j <;> rfl
@[simp] theorem State.setStg_avail (s : State) (j : StgBuf) (m : Memory) : (s.setStg j m).avail = s.avail := by cases j <;> rfl
@[simp] theorem State.setStg_free (s : State) (j : StgBuf) (m : Memory) : (s.setStg j m).free = s.free := by cases j <;> rfl
@[simp] theorem State.setStg_ringByte (s : State) (j : StgBuf) (m : Memory) (o : Nat) : (s.setStg j m).ringByte o = s.ringByte o := by cases j <;> rfl
@[simp] theorem State.setStg_hostByte (s : State) (j : StgBuf) (m : Memory) (a : Nat) : (s.setStg j m).hostByte a = s.hostByte a := by cases j <;> rfl
@[simp] theorem State.setStg_phase (s : State) (j : StgBuf) (m : Memory) (q : DataPort) : (s.setStg j m).phase q = s.phase q := by cases j <;> rfl
@[simp] theorem State.setStg_reg (s : State) (j : StgBuf) (m : Memory) (q : DataPort) : (s.setStg j m).reg q = s.reg q := by cases j <;> rfl
@[simp] theorem State.setStg_lane (s : State) (j : StgBuf) (m : Memory) (q : Port) : (s.setStg j m).lane q = s.lane q := by cases j <;> rfl

/-! `incUsers`. -/

@[simp] theorem State.incUsers_cfg (s : State) : (s.incUsers).cfg = s.cfg := rfl
@[simp] theorem State.incUsers_sizeLog2 (s : State) : (s.incUsers).sizeLog2 = s.sizeLog2 := rfl
@[simp] theorem State.incUsers_ring (s : State) : (s.incUsers).ring = s.ring := rfl
@[simp] theorem State.incUsers_wp (s : State) : (s.incUsers).wp = s.wp := rfl
@[simp] theorem State.incUsers_rp (s : State) : (s.incUsers).rp = s.rp := rfl
@[simp] theorem State.incUsers_silence (s : State) : (s.incUsers).silence = s.silence := rfl
@[simp] theorem State.incUsers_stg0 (s : State) : (s.incUsers).stg0 = s.stg0 := rfl
@[simp] theorem State.incUsers_stg1 (s : State) : (s.incUsers).stg1 = s.stg1 := rfl
@[simp] theorem State.incUsers_stg2 (s : State) : (s.incUsers).stg2 = s.stg2 := rfl
@[simp] theorem State.incUsers_s24Mode (s : State) : (s.incUsers).s24Mode = s.s24Mode := rfl
@[simp] theorem State.incUsers_s24Hint (s : State) : (s.incUsers).s24Hint = s.s24Hint := rfl
@[simp] theorem State.incUsers_s24Confirmed (s : State) : (s.incUsers).s24Confirmed = s.s24Confirmed := rfl
@[simp] theorem State.incUsers_s24SilentCount (s : State) : (s.incUsers).s24SilentCount = s.s24SilentCount := rfl
@[simp] theorem State.incUsers_reconfig (s : State) : (s.incUsers).reconfig = s.reconfig := rfl
@[simp] theorem State.incUsers_regP (s : State) : (s.incUsers).regP = s.regP := rfl
@[simp] theorem State.incUsers_regC (s : State) : (s.incUsers).regC = s.regC := rfl
@[simp] theorem State.incUsers_fmt (s : State) : (s.incUsers).fmt = s.fmt := rfl
@[simp] theorem State.incUsers_fmtGen (s : State) : (s.incUsers).fmtGen = s.fmtGen := rfl
@[simp] theorem State.incUsers_fatal (s : State) : (s.incUsers).fatal = s.fatal := rfl
@[simp] theorem State.incUsers_fatalCode (s : State) : (s.incUsers).fatalCode = s.fatalCode := rfl
@[simp] theorem State.incUsers_phaseP (s : State) : (s.incUsers).phaseP = s.phaseP := rfl
@[simp] theorem State.incUsers_phaseC (s : State) : (s.incUsers).phaseC = s.phaseC := rfl
@[simp] theorem State.incUsers_phaseK (s : State) : (s.incUsers).phaseK = s.phaseK := rfl
@[simp] theorem State.incUsers_wregion (s : State) : (s.incUsers).wregion = s.wregion := rfl
@[simp] theorem State.incUsers_rregion (s : State) : (s.incUsers).rregion = s.rregion := rfl
@[simp] theorem State.incUsers_winWritten (s : State) : (s.incUsers).winWritten = s.winWritten := rfl
@[simp] theorem State.incUsers_host (s : State) : (s.incUsers).host = s.host := rfl
@[simp] theorem State.incUsers_laneP (s : State) : (s.incUsers).laneP = s.laneP := rfl
@[simp] theorem State.incUsers_laneC (s : State) : (s.incUsers).laneC = s.laneC := rfl
@[simp] theorem State.incUsers_laneK (s : State) : (s.incUsers).laneK = s.laneK := rfl
@[simp] theorem State.incUsers_window (s : State) : (s.incUsers).window = s.window := rfl
@[simp] theorem State.incUsers_choice (s : State) : (s.incUsers).choice = s.choice := rfl
@[simp] theorem State.incUsers_schedule (s : State) : (s.incUsers).schedule = s.schedule := rfl
@[simp] theorem State.incUsers_size (s : State) : (s.incUsers).size = s.size := rfl
@[simp] theorem State.incUsers_mask (s : State) : (s.incUsers).mask = s.mask := rfl
@[simp] theorem State.incUsers_avail (s : State) : (s.incUsers).avail = s.avail := rfl
@[simp] theorem State.incUsers_free (s : State) : (s.incUsers).free = s.free := rfl
@[simp] theorem State.incUsers_ringByte (s : State) (o : Nat) : (s.incUsers).ringByte o = s.ringByte o := rfl
@[simp] theorem State.incUsers_hostByte (s : State) (a : Nat) : (s.incUsers).hostByte a = s.hostByte a := rfl
@[simp] theorem State.incUsers_stgByte (s : State) (j : StgBuf) (o : Nat) : (s.incUsers).stgByte j o = s.stgByte j o := rfl
@[simp] theorem State.incUsers_stg (s : State) (j : StgBuf) : (s.incUsers).stg j = s.stg j := rfl
@[simp] theorem State.incUsers_phase (s : State) (q : DataPort) : (s.incUsers).phase q = s.phase q := rfl
@[simp] theorem State.incUsers_reg (s : State) (q : DataPort) : (s.incUsers).reg q = s.reg q := rfl
@[simp] theorem State.incUsers_lane (s : State) (q : Port) : (s.incUsers).lane q = s.lane q := rfl

/-! `decUsers`. -/

@[simp] theorem State.decUsers_cfg (s : State) : (s.decUsers).cfg = s.cfg := rfl
@[simp] theorem State.decUsers_sizeLog2 (s : State) : (s.decUsers).sizeLog2 = s.sizeLog2 := rfl
@[simp] theorem State.decUsers_ring (s : State) : (s.decUsers).ring = s.ring := rfl
@[simp] theorem State.decUsers_wp (s : State) : (s.decUsers).wp = s.wp := rfl
@[simp] theorem State.decUsers_rp (s : State) : (s.decUsers).rp = s.rp := rfl
@[simp] theorem State.decUsers_silence (s : State) : (s.decUsers).silence = s.silence := rfl
@[simp] theorem State.decUsers_stg0 (s : State) : (s.decUsers).stg0 = s.stg0 := rfl
@[simp] theorem State.decUsers_stg1 (s : State) : (s.decUsers).stg1 = s.stg1 := rfl
@[simp] theorem State.decUsers_stg2 (s : State) : (s.decUsers).stg2 = s.stg2 := rfl
@[simp] theorem State.decUsers_s24Mode (s : State) : (s.decUsers).s24Mode = s.s24Mode := rfl
@[simp] theorem State.decUsers_s24Hint (s : State) : (s.decUsers).s24Hint = s.s24Hint := rfl
@[simp] theorem State.decUsers_s24Confirmed (s : State) : (s.decUsers).s24Confirmed = s.s24Confirmed := rfl
@[simp] theorem State.decUsers_s24SilentCount (s : State) : (s.decUsers).s24SilentCount = s.s24SilentCount := rfl
@[simp] theorem State.decUsers_reconfig (s : State) : (s.decUsers).reconfig = s.reconfig := rfl
@[simp] theorem State.decUsers_regP (s : State) : (s.decUsers).regP = s.regP := rfl
@[simp] theorem State.decUsers_regC (s : State) : (s.decUsers).regC = s.regC := rfl
@[simp] theorem State.decUsers_fmt (s : State) : (s.decUsers).fmt = s.fmt := rfl
@[simp] theorem State.decUsers_fmtGen (s : State) : (s.decUsers).fmtGen = s.fmtGen := rfl
@[simp] theorem State.decUsers_fatal (s : State) : (s.decUsers).fatal = s.fatal := rfl
@[simp] theorem State.decUsers_fatalCode (s : State) : (s.decUsers).fatalCode = s.fatalCode := rfl
@[simp] theorem State.decUsers_phaseP (s : State) : (s.decUsers).phaseP = s.phaseP := rfl
@[simp] theorem State.decUsers_phaseC (s : State) : (s.decUsers).phaseC = s.phaseC := rfl
@[simp] theorem State.decUsers_phaseK (s : State) : (s.decUsers).phaseK = s.phaseK := rfl
@[simp] theorem State.decUsers_wregion (s : State) : (s.decUsers).wregion = s.wregion := rfl
@[simp] theorem State.decUsers_rregion (s : State) : (s.decUsers).rregion = s.rregion := rfl
@[simp] theorem State.decUsers_winWritten (s : State) : (s.decUsers).winWritten = s.winWritten := rfl
@[simp] theorem State.decUsers_host (s : State) : (s.decUsers).host = s.host := rfl
@[simp] theorem State.decUsers_laneP (s : State) : (s.decUsers).laneP = s.laneP := rfl
@[simp] theorem State.decUsers_laneC (s : State) : (s.decUsers).laneC = s.laneC := rfl
@[simp] theorem State.decUsers_laneK (s : State) : (s.decUsers).laneK = s.laneK := rfl
@[simp] theorem State.decUsers_window (s : State) : (s.decUsers).window = s.window := rfl
@[simp] theorem State.decUsers_choice (s : State) : (s.decUsers).choice = s.choice := rfl
@[simp] theorem State.decUsers_schedule (s : State) : (s.decUsers).schedule = s.schedule := rfl
@[simp] theorem State.decUsers_size (s : State) : (s.decUsers).size = s.size := rfl
@[simp] theorem State.decUsers_mask (s : State) : (s.decUsers).mask = s.mask := rfl
@[simp] theorem State.decUsers_avail (s : State) : (s.decUsers).avail = s.avail := rfl
@[simp] theorem State.decUsers_free (s : State) : (s.decUsers).free = s.free := rfl
@[simp] theorem State.decUsers_ringByte (s : State) (o : Nat) : (s.decUsers).ringByte o = s.ringByte o := rfl
@[simp] theorem State.decUsers_hostByte (s : State) (a : Nat) : (s.decUsers).hostByte a = s.hostByte a := rfl
@[simp] theorem State.decUsers_stgByte (s : State) (j : StgBuf) (o : Nat) : (s.decUsers).stgByte j o = s.stgByte j o := rfl
@[simp] theorem State.decUsers_stg (s : State) (j : StgBuf) : (s.decUsers).stg j = s.stg j := rfl
@[simp] theorem State.decUsers_phase (s : State) (q : DataPort) : (s.decUsers).phase q = s.phase q := rfl
@[simp] theorem State.decUsers_reg (s : State) (q : DataPort) : (s.decUsers).reg q = s.reg q := rfl
@[simp] theorem State.decUsers_lane (s : State) (q : Port) : (s.decUsers).lane q = s.lane q := rfl

/-! `memWriteHost`. -/

@[simp] theorem State.memWriteHost_cfg (s : State) (a : Nat) (v : List Byte) : (s.memWriteHost a v).cfg = s.cfg := rfl
@[simp] theorem State.memWriteHost_sizeLog2 (s : State) (a : Nat) (v : List Byte) : (s.memWriteHost a v).sizeLog2 = s.sizeLog2 := rfl
@[simp] theorem State.memWriteHost_ring (s : State) (a : Nat) (v : List Byte) : (s.memWriteHost a v).ring = s.ring := rfl
@[simp] theorem State.memWriteHost_wp (s : State) (a : Nat) (v : List Byte) : (s.memWriteHost a v).wp = s.wp := rfl
@[simp] theorem State.memWriteHost_rp (s : State) (a : Nat) (v : List Byte) : (s.memWriteHost a v).rp = s.rp := rfl
@[simp] theorem State.memWriteHost_silence (s : State) (a : Nat) (v : List Byte) : (s.memWriteHost a v).silence = s.silence := rfl
@[simp] theorem State.memWriteHost_stg0 (s : State) (a : Nat) (v : List Byte) : (s.memWriteHost a v).stg0 = s.stg0 := rfl
@[simp] theorem State.memWriteHost_stg1 (s : State) (a : Nat) (v : List Byte) : (s.memWriteHost a v).stg1 = s.stg1 := rfl
@[simp] theorem State.memWriteHost_stg2 (s : State) (a : Nat) (v : List Byte) : (s.memWriteHost a v).stg2 = s.stg2 := rfl
@[simp] theorem State.memWriteHost_s24Mode (s : State) (a : Nat) (v : List Byte) : (s.memWriteHost a v).s24Mode = s.s24Mode := rfl
@[simp] theorem State.memWriteHost_s24Hint (s : State) (a : Nat) (v : List Byte) : (s.memWriteHost a v).s24Hint = s.s24Hint := rfl
@[simp] theorem State.memWriteHost_s24Confirmed (s : State) (a : Nat) (v : List Byte) : (s.memWriteHost a v).s24Confirmed = s.s24Confirmed := rfl
@[simp] theorem State.memWriteHost_s24SilentCount (s : State) (a : Nat) (v : List Byte) : (s.memWriteHost a v).s24SilentCount = s.s24SilentCount := rfl
@[simp] theorem State.memWriteHost_reconfig (s : State) (a : Nat) (v : List Byte) : (s.memWriteHost a v).reconfig = s.reconfig := rfl
@[simp] theorem State.memWriteHost_activeUsers (s : State) (a : Nat) (v : List Byte) : (s.memWriteHost a v).activeUsers = s.activeUsers := rfl
@[simp] theorem State.memWriteHost_regP (s : State) (a : Nat) (v : List Byte) : (s.memWriteHost a v).regP = s.regP := rfl
@[simp] theorem State.memWriteHost_regC (s : State) (a : Nat) (v : List Byte) : (s.memWriteHost a v).regC = s.regC := rfl
@[simp] theorem State.memWriteHost_fmt (s : State) (a : Nat) (v : List Byte) : (s.memWriteHost a v).fmt = s.fmt := rfl
@[simp] theorem State.memWriteHost_fmtGen (s : State) (a : Nat) (v : List Byte) : (s.memWriteHost a v).fmtGen = s.fmtGen := rfl
@[simp] theorem State.memWriteHost_fatal (s : State) (a : Nat) (v : List Byte) : (s.memWriteHost a v).fatal = s.fatal := rfl
@[simp] theorem State.memWriteHost_fatalCode (s : State) (a : Nat) (v : List Byte) : (s.memWriteHost a v).fatalCode = s.fatalCode := rfl
@[simp] theorem State.memWriteHost_phaseP (s : State) (a : Nat) (v : List Byte) : (s.memWriteHost a v).phaseP = s.phaseP := rfl
@[simp] theorem State.memWriteHost_phaseC (s : State) (a : Nat) (v : List Byte) : (s.memWriteHost a v).phaseC = s.phaseC := rfl
@[simp] theorem State.memWriteHost_phaseK (s : State) (a : Nat) (v : List Byte) : (s.memWriteHost a v).phaseK = s.phaseK := rfl
@[simp] theorem State.memWriteHost_wregion (s : State) (a : Nat) (v : List Byte) : (s.memWriteHost a v).wregion = s.wregion := rfl
@[simp] theorem State.memWriteHost_rregion (s : State) (a : Nat) (v : List Byte) : (s.memWriteHost a v).rregion = s.rregion := rfl
@[simp] theorem State.memWriteHost_winWritten (s : State) (a : Nat) (v : List Byte) : (s.memWriteHost a v).winWritten = s.winWritten := rfl
@[simp] theorem State.memWriteHost_laneP (s : State) (a : Nat) (v : List Byte) : (s.memWriteHost a v).laneP = s.laneP := rfl
@[simp] theorem State.memWriteHost_laneC (s : State) (a : Nat) (v : List Byte) : (s.memWriteHost a v).laneC = s.laneC := rfl
@[simp] theorem State.memWriteHost_laneK (s : State) (a : Nat) (v : List Byte) : (s.memWriteHost a v).laneK = s.laneK := rfl
@[simp] theorem State.memWriteHost_window (s : State) (a : Nat) (v : List Byte) : (s.memWriteHost a v).window = s.window := rfl
@[simp] theorem State.memWriteHost_choice (s : State) (a : Nat) (v : List Byte) : (s.memWriteHost a v).choice = s.choice := rfl
@[simp] theorem State.memWriteHost_schedule (s : State) (a : Nat) (v : List Byte) : (s.memWriteHost a v).schedule = s.schedule := rfl
@[simp] theorem State.memWriteHost_size (s : State) (a : Nat) (v : List Byte) : (s.memWriteHost a v).size = s.size := rfl
@[simp] theorem State.memWriteHost_mask (s : State) (a : Nat) (v : List Byte) : (s.memWriteHost a v).mask = s.mask := rfl
@[simp] theorem State.memWriteHost_avail (s : State) (a : Nat) (v : List Byte) : (s.memWriteHost a v).avail = s.avail := rfl
@[simp] theorem State.memWriteHost_free (s : State) (a : Nat) (v : List Byte) : (s.memWriteHost a v).free = s.free := rfl
@[simp] theorem State.memWriteHost_ringByte (s : State) (a : Nat) (v : List Byte) (o : Nat) : (s.memWriteHost a v).ringByte o = s.ringByte o := rfl
@[simp] theorem State.memWriteHost_stgByte (s : State) (a : Nat) (v : List Byte) (j : StgBuf) (o : Nat) : (s.memWriteHost a v).stgByte j o = s.stgByte j o := rfl
@[simp] theorem State.memWriteHost_stg (s : State) (a : Nat) (v : List Byte) (j : StgBuf) : (s.memWriteHost a v).stg j = s.stg j := rfl
@[simp] theorem State.memWriteHost_phase (s : State) (a : Nat) (v : List Byte) (q : DataPort) : (s.memWriteHost a v).phase q = s.phase q := rfl
@[simp] theorem State.memWriteHost_reg (s : State) (a : Nat) (v : List Byte) (q : DataPort) : (s.memWriteHost a v).reg q = s.reg q := rfl
@[simp] theorem State.memWriteHost_lane (s : State) (a : Nat) (v : List Byte) (q : Port) : (s.memWriteHost a v).lane q = s.lane q := rfl

/-! `s24Reset`. -/

@[simp] theorem State.s24Reset_cfg (s : State) : (s.s24Reset).cfg = s.cfg := rfl
@[simp] theorem State.s24Reset_sizeLog2 (s : State) : (s.s24Reset).sizeLog2 = s.sizeLog2 := rfl
@[simp] theorem State.s24Reset_ring (s : State) : (s.s24Reset).ring = s.ring := rfl
@[simp] theorem State.s24Reset_wp (s : State) : (s.s24Reset).wp = s.wp := rfl
@[simp] theorem State.s24Reset_rp (s : State) : (s.s24Reset).rp = s.rp := rfl
@[simp] theorem State.s24Reset_silence (s : State) : (s.s24Reset).silence = s.silence := rfl
@[simp] theorem State.s24Reset_stg0 (s : State) : (s.s24Reset).stg0 = s.stg0 := rfl
@[simp] theorem State.s24Reset_stg1 (s : State) : (s.s24Reset).stg1 = s.stg1 := rfl
@[simp] theorem State.s24Reset_stg2 (s : State) : (s.s24Reset).stg2 = s.stg2 := rfl
@[simp] theorem State.s24Reset_reconfig (s : State) : (s.s24Reset).reconfig = s.reconfig := rfl
@[simp] theorem State.s24Reset_activeUsers (s : State) : (s.s24Reset).activeUsers = s.activeUsers := rfl
@[simp] theorem State.s24Reset_regP (s : State) : (s.s24Reset).regP = s.regP := rfl
@[simp] theorem State.s24Reset_regC (s : State) : (s.s24Reset).regC = s.regC := rfl
@[simp] theorem State.s24Reset_fmt (s : State) : (s.s24Reset).fmt = s.fmt := rfl
@[simp] theorem State.s24Reset_fmtGen (s : State) : (s.s24Reset).fmtGen = s.fmtGen := rfl
@[simp] theorem State.s24Reset_fatal (s : State) : (s.s24Reset).fatal = s.fatal := rfl
@[simp] theorem State.s24Reset_fatalCode (s : State) : (s.s24Reset).fatalCode = s.fatalCode := rfl
@[simp] theorem State.s24Reset_phaseP (s : State) : (s.s24Reset).phaseP = s.phaseP := rfl
@[simp] theorem State.s24Reset_phaseC (s : State) : (s.s24Reset).phaseC = s.phaseC := rfl
@[simp] theorem State.s24Reset_phaseK (s : State) : (s.s24Reset).phaseK = s.phaseK := rfl
@[simp] theorem State.s24Reset_wregion (s : State) : (s.s24Reset).wregion = s.wregion := rfl
@[simp] theorem State.s24Reset_rregion (s : State) : (s.s24Reset).rregion = s.rregion := rfl
@[simp] theorem State.s24Reset_winWritten (s : State) : (s.s24Reset).winWritten = s.winWritten := rfl
@[simp] theorem State.s24Reset_host (s : State) : (s.s24Reset).host = s.host := rfl
@[simp] theorem State.s24Reset_laneP (s : State) : (s.s24Reset).laneP = s.laneP := rfl
@[simp] theorem State.s24Reset_laneC (s : State) : (s.s24Reset).laneC = s.laneC := rfl
@[simp] theorem State.s24Reset_laneK (s : State) : (s.s24Reset).laneK = s.laneK := rfl
@[simp] theorem State.s24Reset_window (s : State) : (s.s24Reset).window = s.window := rfl
@[simp] theorem State.s24Reset_choice (s : State) : (s.s24Reset).choice = s.choice := rfl
@[simp] theorem State.s24Reset_schedule (s : State) : (s.s24Reset).schedule = s.schedule := rfl
@[simp] theorem State.s24Reset_size (s : State) : (s.s24Reset).size = s.size := rfl
@[simp] theorem State.s24Reset_mask (s : State) : (s.s24Reset).mask = s.mask := rfl
@[simp] theorem State.s24Reset_avail (s : State) : (s.s24Reset).avail = s.avail := rfl
@[simp] theorem State.s24Reset_free (s : State) : (s.s24Reset).free = s.free := rfl
@[simp] theorem State.s24Reset_ringByte (s : State) (o : Nat) : (s.s24Reset).ringByte o = s.ringByte o := rfl
@[simp] theorem State.s24Reset_hostByte (s : State) (a : Nat) : (s.s24Reset).hostByte a = s.hostByte a := rfl
@[simp] theorem State.s24Reset_stgByte (s : State) (j : StgBuf) (o : Nat) : (s.s24Reset).stgByte j o = s.stgByte j o := rfl
@[simp] theorem State.s24Reset_stg (s : State) (j : StgBuf) : (s.s24Reset).stg j = s.stg j := rfl
@[simp] theorem State.s24Reset_phase (s : State) (q : DataPort) : (s.s24Reset).phase q = s.phase q := rfl
@[simp] theorem State.s24Reset_reg (s : State) (q : DataPort) : (s.s24Reset).reg q = s.reg q := rfl
@[simp] theorem State.s24Reset_lane (s : State) (q : Port) : (s.s24Reset).lane q = s.lane q := rfl

/-! `emptyRing`. -/

@[simp] theorem State.emptyRing_cfg (s : State) : (s.emptyRing).cfg = s.cfg := rfl
@[simp] theorem State.emptyRing_sizeLog2 (s : State) : (s.emptyRing).sizeLog2 = s.sizeLog2 := rfl
@[simp] theorem State.emptyRing_silence (s : State) : (s.emptyRing).silence = s.silence := rfl
@[simp] theorem State.emptyRing_stg0 (s : State) : (s.emptyRing).stg0 = s.stg0 := rfl
@[simp] theorem State.emptyRing_stg1 (s : State) : (s.emptyRing).stg1 = s.stg1 := rfl
@[simp] theorem State.emptyRing_stg2 (s : State) : (s.emptyRing).stg2 = s.stg2 := rfl
@[simp] theorem State.emptyRing_s24Mode (s : State) : (s.emptyRing).s24Mode = s.s24Mode := rfl
@[simp] theorem State.emptyRing_s24Hint (s : State) : (s.emptyRing).s24Hint = s.s24Hint := rfl
@[simp] theorem State.emptyRing_s24Confirmed (s : State) : (s.emptyRing).s24Confirmed = s.s24Confirmed := rfl
@[simp] theorem State.emptyRing_s24SilentCount (s : State) : (s.emptyRing).s24SilentCount = s.s24SilentCount := rfl
@[simp] theorem State.emptyRing_reconfig (s : State) : (s.emptyRing).reconfig = s.reconfig := rfl
@[simp] theorem State.emptyRing_activeUsers (s : State) : (s.emptyRing).activeUsers = s.activeUsers := rfl
@[simp] theorem State.emptyRing_regP (s : State) : (s.emptyRing).regP = s.regP := rfl
@[simp] theorem State.emptyRing_regC (s : State) : (s.emptyRing).regC = s.regC := rfl
@[simp] theorem State.emptyRing_fmt (s : State) : (s.emptyRing).fmt = s.fmt := rfl
@[simp] theorem State.emptyRing_fmtGen (s : State) : (s.emptyRing).fmtGen = s.fmtGen := rfl
@[simp] theorem State.emptyRing_fatal (s : State) : (s.emptyRing).fatal = s.fatal := rfl
@[simp] theorem State.emptyRing_fatalCode (s : State) : (s.emptyRing).fatalCode = s.fatalCode := rfl
@[simp] theorem State.emptyRing_phaseP (s : State) : (s.emptyRing).phaseP = s.phaseP := rfl
@[simp] theorem State.emptyRing_phaseC (s : State) : (s.emptyRing).phaseC = s.phaseC := rfl
@[simp] theorem State.emptyRing_phaseK (s : State) : (s.emptyRing).phaseK = s.phaseK := rfl
@[simp] theorem State.emptyRing_wregion (s : State) : (s.emptyRing).wregion = s.wregion := rfl
@[simp] theorem State.emptyRing_rregion (s : State) : (s.emptyRing).rregion = s.rregion := rfl
@[simp] theorem State.emptyRing_winWritten (s : State) : (s.emptyRing).winWritten = s.winWritten := rfl
@[simp] theorem State.emptyRing_host (s : State) : (s.emptyRing).host = s.host := rfl
@[simp] theorem State.emptyRing_laneP (s : State) : (s.emptyRing).laneP = s.laneP := rfl
@[simp] theorem State.emptyRing_laneC (s : State) : (s.emptyRing).laneC = s.laneC := rfl
@[simp] theorem State.emptyRing_laneK (s : State) : (s.emptyRing).laneK = s.laneK := rfl
@[simp] theorem State.emptyRing_window (s : State) : (s.emptyRing).window = s.window := rfl
@[simp] theorem State.emptyRing_choice (s : State) : (s.emptyRing).choice = s.choice := rfl
@[simp] theorem State.emptyRing_schedule (s : State) : (s.emptyRing).schedule = s.schedule := rfl
@[simp] theorem State.emptyRing_size (s : State) : (s.emptyRing).size = s.size := rfl
@[simp] theorem State.emptyRing_mask (s : State) : (s.emptyRing).mask = s.mask := rfl
@[simp] theorem State.emptyRing_hostByte (s : State) (a : Nat) : (s.emptyRing).hostByte a = s.hostByte a := rfl
@[simp] theorem State.emptyRing_stgByte (s : State) (j : StgBuf) (o : Nat) : (s.emptyRing).stgByte j o = s.stgByte j o := rfl
@[simp] theorem State.emptyRing_stg (s : State) (j : StgBuf) : (s.emptyRing).stg j = s.stg j := rfl
@[simp] theorem State.emptyRing_phase (s : State) (q : DataPort) : (s.emptyRing).phase q = s.phase q := rfl
@[simp] theorem State.emptyRing_reg (s : State) (q : DataPort) : (s.emptyRing).reg q = s.reg q := rfl
@[simp] theorem State.emptyRing_lane (s : State) (q : Port) : (s.emptyRing).lane q = s.lane q := rfl

/-! The fields the updates write. -/

@[simp] theorem State.setLane_lane_same (s : State) (p : Port) (l : Lane) : (s.setLane p l).lane p = l := by
  cases p <;> rfl

theorem State.setLane_lane_other (s : State) (p q : Port) (l : Lane) (h : q ≠ p) :
    (s.setLane p l).lane q = s.lane q := by
  cases p <;> cases q <;> first | rfl | exact absurd rfl h

@[simp] theorem State.finish_lane_same (s : State) (p : Port) (r : Response) :
    (s.finish p r).lane p = { s.lane p with inflight := none, resp := some r } := by
  cases p <;> rfl

theorem State.finish_lane_other (s : State) (p q : Port) (r : Response) (h : q ≠ p) :
    (s.finish p r).lane q = s.lane q := State.setLane_lane_other s p q _ h

@[simp] theorem State.goTo_lane_same (s : State) (i : Instr) (st : Stage) :
    (s.goTo i st).lane i.port = { s.lane i.port with inflight := some { instr := i, stage := st } } := by
  simp [State.goTo]

theorem State.goTo_lane_other (s : State) (i : Instr) (st : Stage) (q : Port) (h : q ≠ i.port) :
    (s.goTo i st).lane q = s.lane q := State.setLane_lane_other s i.port q _ h

@[simp] theorem State.goTo_progress (s : State) (i : Instr) (st : Stage) : (s.goTo i st).progress i = .at st := by
  simp [State.progress]

@[simp] theorem State.finish_progress (s : State) (i : Instr) (r : Response) : (s.finish i.port r).progress i = .fresh := by
  simp [State.progress]

theorem State.progress_fresh_iff (s : State) (i : Instr) :
    s.progress i = .fresh ↔ (s.lane i.port).inflight = none := by
  unfold State.progress
  cases (s.lane i.port).inflight with
  | none => simp
  | some c => by_cases h : c.instr = i <;> simp [h]

theorem State.progress_at_iff (s : State) (i : Instr) (st : Stage) :
    s.progress i = .at st ↔ (s.lane i.port).inflight = some { instr := i, stage := st } := by
  unfold State.progress
  cases (s.lane i.port).inflight with
  | none => simp
  | some c =>
    obtain ⟨j, st'⟩ := c
    by_cases h : j = i <;> simp [h]

@[simp] theorem State.setGuard_phase_same (s : State) (p : DataPort) (b : Bool) (f : DataPhase) :
    (s.setGuard p b f).phase p = f := by cases p <;> rfl

@[simp] theorem State.setGuard_reg_same (s : State) (p : DataPort) (b : Bool) (f : DataPhase) :
    (s.setGuard p b f).reg p = b := by cases p <;> rfl

theorem State.setGuard_phase_other (s : State) (p q : DataPort) (b : Bool) (f : DataPhase) (h : q ≠ p) :
    (s.setGuard p b f).phase q = s.phase q := by
  cases p <;> cases q <;> first | rfl | exact absurd rfl h

theorem State.setGuard_reg_other (s : State) (p q : DataPort) (b : Bool) (f : DataPhase) (h : q ≠ p) :
    (s.setGuard p b f).reg q = s.reg q := by
  cases p <;> cases q <;> first | rfl | exact absurd rfl h

@[simp] theorem State.setStg_stg_same (s : State) (j : StgBuf) (m : Memory) : (s.setStg j m).stg j = m := by
  cases j <;> rfl

theorem State.setStg_stg_other (s : State) (j k : StgBuf) (m : Memory) (h : k ≠ j) : (s.setStg j m).stg k = s.stg k := by
  cases j <;> cases k <;> first | rfl | exact absurd rfl h

@[simp] theorem State.incUsers_activeUsers (s : State) : s.incUsers.activeUsers = s.activeUsers + 1 := rfl

@[simp] theorem State.decUsers_activeUsers (s : State) : s.decUsers.activeUsers = s.activeUsers - 1 := rfl

@[simp] theorem State.memWriteHost_host (s : State) (a : Nat) (v : List Byte) :
    (s.memWriteHost a v).host = memWrite hostFill s.host a v := rfl

/-- The whole effect of the fatal condition (R283). -/
theorem State.raiseFatal_eq (s : State) (p : Port) (code : BitVec 8) :
    s.raiseFatal p code =
      { s with fatal := true, fatalCode := code }.setLane p
        { s.lane p with inflight := none, resp := some (fatalResponse code) } := by
  cases p <;> rfl

end Sys2Proof.Machine
end

