-- ==== Sys2Proof/Laws/Ring.lean ====
section
/-! SUPPORT. What the ring and staging primitives do, once each: when they answer, what they change, which bytes they
leave (spec/00_scope.md R14, spec/42_ring.md R181), and the meaning of the mask (spec/00_scope.md R12). -/

namespace Sys2Proof.Machine

theorem State.size_pos (s : State) : 0 < s.size := Nat.two_pow_pos _

theorem State.size_le (s : State) (k : Nat) (h : s.sizeLog2.toNat ≤ k) : s.size ≤ 2 ^ k :=
  Nat.pow_le_pow_right (by norm_num) h

theorem State.mask_toNat (s : State) (h : s.sizeLog2.toNat ≤ 32) : s.mask.toNat = s.size - 1 := by
  have h1 := s.size_le 32 h
  have h2 := s.size_pos
  simp only [State.mask, BitVec.toNat_ofNat]
  exact Nat.mod_eq_of_lt (by omega)

/-- R12: `a & MASK = a mod SIZE`. -/
theorem State.and_mask_toNat (s : State) (h : s.sizeLog2.toNat ≤ 32) (x : Word) :
    (x &&& s.mask).toNat = x.toNat % s.size := by
  rw [BitVec.toNat_and, s.mask_toNat h]
  exact Nat.and_two_pow_sub_one_eq_mod _ _

theorem State.and_mask_lt (s : State) (h : s.sizeLog2.toNat ≤ 32) (x : Word) : (x &&& s.mask).toNat < s.size := by
  rw [s.and_mask_toNat h]
  exact Nat.mod_lt _ s.size_pos

theorem State.size_dvd (s : State) (h : s.sizeLog2.toNat ≤ 32) : s.size ∣ 2 ^ 32 := Nat.pow_dvd_pow 2 h

/-! The record of window writes. -/

/-- What the record holds after a write. -/
theorem mem_addOffsets {l : List Nat} {off n o : Nat} :
    o ∈ addOffsets l off n ↔ o ∈ l ∨ (off ≤ o ∧ o < off + n) := by
  simp only [addOffsets, List.mem_append, List.mem_filter, List.mem_range'_1, decide_eq_true_eq]
  by_cases ho : o ∈ l <;> simp only [ho, true_and, false_and, false_or, or_false, true_or, iff_true]
  omega

/-- The record keeps its rising form. -/
theorem addOffsets_rising {l : List Nat} {off n : Nat} (h : l.Pairwise (· < ·)) :
    (addOffsets l off n).Pairwise (· < ·) := by
  simp only [addOffsets, List.pairwise_append, List.mem_append, List.mem_filter, List.mem_range'_1,
    decide_eq_true_eq]
  refine ⟨⟨h.filter _, List.pairwise_lt_range', ?_⟩, h.filter _, ?_⟩ <;> omega

/-- The test of a commit (R325). -/
theorem allWritten_iff {l : List Nat} {off n : Nat} : allWritten l off n = true ↔ ∀ k < n, off + k ∈ l :=
  decide_eq_true_iff

/-- `RingWrite` answers exactly when the range does not pass SIZE, and then only `RING` changes. -/
theorem State.ringWrite_eq_some (s t : State) (off : Nat) (v : List Byte) :
    s.ringWrite off v = some t ↔
      off + v.length ≤ s.size ∧ t = { s with ring := memWrite s.silence s.ring off v } := by
  unfold State.ringWrite
  split
  · simp [*, eq_comm]
  · simp [*]

/-- `RingWrite` byte by byte. -/
theorem State.ringWrite_bytes (s t : State) (off : Nat) (v : List Byte) (h : s.ringWrite off v = some t) :
    (∀ k < v.length, t.ringByte (off + k) = v.getD k 0) ∧
      ∀ o, o < off ∨ off + v.length ≤ o → t.ringByte o = s.ringByte o := by
  obtain ⟨-, rfl⟩ := (s.ringWrite_eq_some t off v).1 h
  refine ⟨fun k hk => ?_, fun o ho => ?_⟩
  · simp only [State.ringByte]
    rw [memGet_memWrite_in _ _ _ _ _ hk, List.getD_eq_getElem _ _ hk]
  · exact memGet_memWrite_out _ _ _ _ _ ho

/-- `ring_put` changes nothing but `RING`, and keeps its canonical form. -/
theorem State.ringPut_frame (s t : State) (w : Word) (v : List Byte) (h : s.ringPut w v = some t) :
    t = { s with ring := t.ring } ∧
      (Memory.wf s.silence s.size s.ring = true → Memory.wf s.silence s.size t.ring = true) := by
  unfold State.ringPut at h
  dsimp only at h
  split at h
  · cases h
  next s1 h1 =>
    obtain ⟨hl, rfl⟩ := (s.ringWrite_eq_some _ _ _).1 h1
    split at h
    · obtain ⟨hl2, rfl⟩ := (State.ringWrite_eq_some _ t _ _).1 h
      exact ⟨rfl, fun hw => memWrite_wf _ _ _ _ _ (memWrite_wf _ _ _ _ _ hw hl) hl2⟩
    · cases h
      exact ⟨rfl, fun hw => memWrite_wf _ _ _ _ _ hw hl⟩

/-- `ring_put` from an offset inside the storage, of at most SIZE bytes, always answers (R181): byte k lands at offset
`(w + k) mod SIZE`, and every other offset keeps its byte. -/
theorem State.ringPut_bytes (s : State) (w : Word) (v : List Byte) (hw : w.toNat < s.size) (hv : v.length ≤ s.size) :
    ∃ t, s.ringPut w v = some t ∧ (∀ k < v.length, t.ringByte ((w.toNat + k) % s.size) = v.getD k 0) ∧
      ∀ o, ¬ s.inRingRange w.toNat v.length o → t.ringByte o = s.ringByte o := by
  have hf : w.toNat + (v.take (min v.length (s.size - w.toNat))).length ≤ s.size := by
    simp only [List.length_take]; omega
  set s1 : State :=
    { s with ring := memWrite s.silence s.ring w.toNat (v.take (min v.length (s.size - w.toNat))) } with hs1
  have h1 : s.ringWrite w.toNat (v.take (min v.length (s.size - w.toNat))) = some s1 :=
    (s.ringWrite_eq_some _ _ _).2 ⟨hf, rfl⟩
  obtain ⟨b1, f1⟩ := s.ringWrite_bytes s1 _ _ h1
  simp only [List.length_take] at b1 f1
  by_cases hn : v.length ≤ s.size - w.toNat
  · have hmin : min v.length (s.size - w.toNat) = v.length := by omega
    rw [hmin] at b1 f1 h1
    simp only [min_self, List.take_length] at b1 f1 h1
    refine ⟨s1, ?_, fun k hk => ?_, fun o ho => ?_⟩
    · unfold State.ringPut
      simp only [hmin, List.take_length, h1]
      simp
    · rw [Nat.mod_eq_of_lt (by omega)]; exact b1 k hk
    · apply f1
      by_contra hc
      exact ho ⟨o - w.toNat, by omega, by rw [Nat.mod_eq_of_lt (by omega)]; omega⟩
  · have hmin : min v.length (s.size - w.toNat) = s.size - w.toNat := by omega
    have hsz : s1.size = s.size := rfl
    set t : State := { s1 with ring := memWrite s1.silence s1.ring 0 (v.drop (s.size - w.toNat)) } with ht
    have h2 : s1.ringWrite 0 (v.drop (s.size - w.toNat)) = some t :=
      (State.ringWrite_eq_some _ _ _ _).2 ⟨by simp only [List.length_drop]; omega, rfl⟩
    obtain ⟨b2, f2⟩ := s1.ringWrite_bytes t _ _ h2
    simp only [List.length_drop] at b2 f2
    rw [hmin] at b1 f1 h1
    refine ⟨t, ?_, fun k hk => ?_, fun o ho => ?_⟩
    · unfold State.ringPut
      simp only [hmin, h1]
      rw [if_pos (by omega), h2]
    · by_cases hk1 : k < s.size - w.toNat
      · rw [Nat.mod_eq_of_lt (by omega), f2 _ (by omega), b1 k (by omega)]
        simp [List.getD_eq_getElem?_getD, hk1]
      · have hmod : (w.toNat + k) % s.size = 0 + (k - (s.size - w.toNat)) := by
          rw [show w.toNat + k = (k - (s.size - w.toNat)) + s.size by omega, Nat.add_mod_right,
            Nat.mod_eq_of_lt (by omega)]; omega
        rw [hmod, b2 _ (by omega)]
        simp only [List.getD_eq_getElem?_getD, List.getElem?_drop]
        rw [show s.size - w.toNat + (k - (s.size - w.toNat)) = k by omega]
    · have ho1 : ¬ (w.toNat ≤ o ∧ o < s.size) := fun hc =>
        ho ⟨o - w.toNat, by omega, by rw [Nat.mod_eq_of_lt (by omega)]; omega⟩
      have ho2 : ¬ (o < v.length - (s.size - w.toNat)) := fun hc =>
        ho ⟨o + (s.size - w.toNat), by omega, by
          rw [show w.toNat + (o + (s.size - w.toNat)) = o + s.size by omega, Nat.add_mod_right,
            Nat.mod_eq_of_lt (by omega)]⟩
      rw [f2 o (by omega), f1 o (by omega)]

/-- `ring_get` of at most SIZE bytes from an offset inside the storage always answers (R181): byte k comes from offset
`(r + k) mod SIZE`. -/
theorem State.ringGet_bytes (s : State) (r : Word) (n : Nat) (hr : r.toNat < s.size) (hn : n ≤ s.size) :
    s.ringGet r n = some ((List.range n).map (fun k => s.ringByte ((r.toNat + k) % s.size))) := by
  unfold State.ringGet State.ringRead
  have h1 : r.toNat + min n (s.size - r.toNat) ≤ s.size := by omega
  simp only [h1, if_true]
  split
  · have h2 : 0 + (n - min n (s.size - r.toNat)) ≤ s.size := by omega
    simp only [h2, if_true, Option.map_some]
    congr 1
    apply List.ext_getElem
    · simp
    · intro i hi hi'
      simp only [List.length_append, memRead_length, List.length_map, List.length_range] at hi hi'
      rw [List.getElem_append]
      simp only [memRead_length, memRead_getElem, List.getElem_map, List.getElem_range, State.ringByte]
      split
      · rw [Nat.mod_eq_of_lt (by omega)]
      · congr 1
        rw [show r.toNat + i = (i - min n (s.size - r.toNat)) + s.size by omega, Nat.add_mod_right,
          Nat.mod_eq_of_lt (by omega)]
        omega
  · congr 1
    apply List.ext_getElem
    · simp; omega
    · intro i hi hi'
      simp only [memRead_length, List.length_map, List.length_range] at hi hi'
      simp only [memRead_getElem, List.getElem_map, List.getElem_range, State.ringByte]
      rw [Nat.mod_eq_of_lt (by omega)]

/-- Whatever `ring_get` answers has the length asked for. -/
theorem State.ringGet_length (s : State) (r : Word) (n : Nat) (v : List Byte) (h : s.ringGet r n = some v) :
    v.length = n := by
  unfold State.ringGet State.ringRead at h
  dsimp only at h
  split at h
  · cases h
  next u hu =>
    split at hu
    · cases hu
      split at h
      · split at h
        · cases h; simp
        · cases h
      · cases h; simp; omega
    · cases hu

/-- `StgWrite` answers exactly when the range does not pass 65536, and then only its buffer changes. -/
theorem State.stgWrite_eq_some (s t : State) (j : StgBuf) (off : Nat) (v : List Byte) :
    s.stgWrite j off v = some t ↔
      off + v.length ≤ stagingSize ∧ t = s.setStg j (memWrite stagingFill (s.stg j) off v) := by
  unfold State.stgWrite
  split
  · simp [*, eq_comm]
  · simp [*]

/-- `StgRead` answers exactly when the range does not pass 65536. -/
theorem State.stgRead_eq_some (s : State) (j : StgBuf) (off n : Nat) (v : List Byte) :
    s.stgRead j off n = some v ↔
      off + n ≤ stagingSize ∧ v = (List.range n).map (fun k => s.stgByte j (off + k)) := by
  unfold State.stgRead
  split
  · simp [*, memRead_eq_map, State.stgByte, eq_comm]
  · simp [*]

/-- `MemRead` byte by byte. -/
theorem State.memReadHost_eq_map (s : State) (addr n : Nat) :
    s.memReadHost addr n = (List.range n).map (fun k => s.hostByte (addr + k)) := memRead_eq_map _ _ _ _

@[simp] theorem State.memReadHost_length (s : State) (addr n : Nat) : (s.memReadHost addr n).length = n :=
  memRead_length _ _ _ _

/-- `MemWrite` byte by byte. -/
theorem State.memWriteHost_bytes (s : State) (addr : Nat) (v : List Byte) :
    (∀ k < v.length, (s.memWriteHost addr v).hostByte (addr + k) = v.getD k 0) ∧
      ∀ a, a < addr ∨ addr + v.length ≤ a → (s.memWriteHost addr v).hostByte a = s.hostByte a := by
  refine ⟨fun k hk => ?_, fun a ha => memGet_memWrite_out _ _ _ _ _ ha⟩
  simp only [State.hostByte, State.memWriteHost]
  rw [memGet_memWrite_in _ _ _ _ _ hk, List.getD_eq_getElem _ _ hk]

/-- A HOST access is given a step exactly when its ranges end at or below 2^32, meet no hole and meet no range of
another port's command in flight, one of the two writing (R72, R329). -/
theorem State.hostRefusal_eq_none (s : State) (p : Port) (reads writes : List HostRange) :
    s.hostRefusal p reads writes = none ↔
      (∀ r ∈ reads ++ writes, r.base + r.len ≤ hostSize) ∧ Config.admits s.cfg (reads ++ writes) = true ∧
        s.hostRaces p reads writes = false := by
  unfold State.hostRefusal
  have h : rangesInHost (reads ++ writes) = false ↔ ¬ ∀ r ∈ reads ++ writes, r.base + r.len ≤ hostSize := by
    rw [← Bool.not_eq_true]
    simp only [rangesInHost, List.all_eq_true, decide_eq_true_eq]
  split
  · next h1 => exact ⟨fun hc => (by cases hc), fun hc => absurd hc.1 (h.1 h1)⟩
  · next h1 =>
    have h1' := not_not.1 (mt h.2 h1)
    split
    · next h2 => exact ⟨fun hc => (by cases hc), fun hc => by rw [hc.2.1] at h2; cases h2⟩
    · next h2 =>
      have h2' : Config.admits s.cfg (reads ++ writes) = true := by simpa using h2
      split
      · next h3 => exact ⟨fun hc => (by cases hc), fun hc => by rw [hc.2.2] at h3; cases h3⟩
      · next h3 => exact ⟨fun _ => ⟨h1', h2', by simpa using h3⟩, fun _ => rfl⟩

/-- The port's own command never races with itself: whether an access is refused depends on the parameters and the
other ports alone. -/
theorem State.hostRefusal_congr (s t : State) (p : Port) (reads writes : List HostRange) (hc : t.cfg = s.cfg)
    (h : ∀ q, q ≠ p → (t.lane q).inflight = (s.lane q).inflight) :
    t.hostRefusal p reads writes = s.hostRefusal p reads writes := by
  have hr : t.hostRaces p reads writes = s.hostRaces p reads writes := by
    unfold State.hostRaces
    cases p <;> simp [List.filter, h]
  unfold State.hostRefusal
  rw [hc, hr]

end Sys2Proof.Machine
end

