-- ==== Sys2Proof/Laws/Commands.lean ====
section
/-! SUPPORT. What each command's next labelled step, and each entry of the schedule, can do: if it answers a next state,
then it stood at one of the listed places, what it required held, and that is the state it left. -/

namespace Sys2Proof.Machine

/-- A command of one step answers only on a free port. -/
theorem oneStep_next {i : Instr} {s t : State} {body : Result} (h : oneStep i s body = .next t) :
    s.portFree i.port ∧ body = .next t := by
  unfold oneStep at h
  split at h
  · exact ⟨(State.progress_fresh_iff s i).1 (by assumption), h⟩
  · cases h

theorem needGuarded_eq_none {f : DataPhase} : needGuarded f = none ↔ f = .guarded := by cases f <;> simp [needGuarded]

theorem needRegion_eq_none {f : DataPhase} : needRegion f = none ↔ f = .region := by cases f <;> simp [needRegion]

theorem needExcl_eq_none {f : ConfigPhase} : needExcl f = none ↔ f = .excl := by cases f <;> simp [needExcl]

/-- A one-step command of K under exclusive ownership. -/
theorem underExcl_next {i : Instr} {s u t : State} (h : underExcl i s u = .next t) :
    s.portFree i.port ∧ s.phaseK = .excl ∧ t = u.finish .config (done 0 0) := by
  obtain ⟨hf, hb⟩ := oneStep_next h
  split at hb
  · cases hb
  · next hn => cases hb; exact ⟨hf, needExcl_eq_none.1 hn, rfl⟩

/-- COPYF and COPYW. -/
theorem copyCommand_next {i : Instr} {dst src n : Word} {moved : State → Memory} {s t : State}
    (h : copyCommand i dst src n moved s = .next t) :
    (s.portFree i.port ∧ overlap dst src n = true ∧ t = s.raiseFatal i.port copyOverlapCode) ∨
    (s.portFree i.port ∧ overlap dst src n = false ∧ t = s.goTo i .copyMove) ∨
    (s.atStage i .copyMove ∧ s.hostRefusal i.port [rangeAt src n.toNat] [rangeAt dst n.toNat] = none ∧
      t = ({ s with host := moved s }).goTo i .copyDone) ∨
    (s.atStage i .copyDone ∧ t = s.finish i.port (done 0 0)) := by
  unfold copyCommand at h
  split at h
  · next hp =>
    split at h
    · next ho => cases h; exact .inl ⟨(State.progress_fresh_iff s i).1 hp, ho, rfl⟩
    · next ho => cases h; exact .inr (.inl ⟨(State.progress_fresh_iff s i).1 hp, by simpa using ho, rfl⟩)
  · next hp =>
    split at h
    · cases h
    · next hr => cases h; exact .inr (.inr (.inl ⟨(State.progress_at_iff s i _).1 hp, hr, rfl⟩))
  · next hp => cases h; exact .inr (.inr (.inr ⟨(State.progress_at_iff s i _).1 hp, rfl⟩))
  · cases h

/-- PUSH (R184). -/
theorem execPush_next {src len : Word} {s t : State} (h : execPush src len s = .next t) :
    (s.portFree .producer ∧ s.phaseP = .guarded ∧ min len.toNat s.free.toNat = 0 ∧
      t = s.finish .producer (done 0 0)) ∨
    (s.portFree .producer ∧ s.phaseP = .guarded ∧ 0 < min len.toNat s.free.toNat ∧
      t = s.goTo (.push src len) (.move s.wp (min len.toNat s.free.toNat))) ∨
    (∃ w n u, s.atStage (.push src len) (.move w n) ∧ s.hostRefusal .producer [rangeAt src n] [] = none ∧
      s.ringPut w (s.memReadHost src.toNat n) = some u ∧ t = u.goTo (.push src len) (.publish w n)) ∨
    (∃ w n, s.atStage (.push src len) (.publish w n) ∧
      t = ({ s with wp := advancePos s.mask w n }).finish .producer (done (BitVec.ofNat 32 n) 0)) := by
  unfold execPush at h
  split at h
  · next hp =>
    have hf := (State.progress_fresh_iff s (.push src len)).1 hp
    split at h
    · cases h
    · next hg =>
      dsimp only at h
      split at h
      · next hn => cases h; exact .inl ⟨hf, needGuarded_eq_none.1 hg, hn, rfl⟩
      · next hn => cases h; exact .inr (.inl ⟨hf, needGuarded_eq_none.1 hg, Nat.pos_of_ne_zero hn, rfl⟩)
  · next w n hp =>
    split at h
    · cases h
    · next hr =>
      split at h
      · cases h
      · next u hu => cases h; exact .inr (.inr (.inl ⟨w, n, u, (State.progress_at_iff s _ _).1 hp, hr, hu, rfl⟩))
  · next w n hp => cases h; exact .inr (.inr (.inr ⟨w, n, (State.progress_at_iff s _ _).1 hp, rfl⟩))
  · cases h

/-- POP (R186). -/
theorem execPop_next {dst len : Word} {s t : State} (h : execPop dst len s = .next t) :
    (s.portFree .consumer ∧ s.phaseC = .guarded ∧ min len.toNat s.avail.toNat = 0 ∧
      t = s.finish .consumer (done 0 0)) ∨
    (s.portFree .consumer ∧ s.phaseC = .guarded ∧ 0 < min len.toNat s.avail.toNat ∧
      t = s.goTo (.pop dst len) (.move s.rp (min len.toNat s.avail.toNat))) ∨
    (∃ r n v, s.atStage (.pop dst len) (.move r n) ∧ s.hostRefusal .consumer [] [rangeAt dst n] = none ∧
      s.ringGet r n = some v ∧ t = (s.memWriteHost dst.toNat v).goTo (.pop dst len) (.publish r n)) ∨
    (∃ r n, s.atStage (.pop dst len) (.publish r n) ∧
      t = ({ s with rp := advancePos s.mask r n }).finish .consumer (done (BitVec.ofNat 32 n) 0)) := by
  unfold execPop at h
  split at h
  · next hp =>
    have hf := (State.progress_fresh_iff s (.pop dst len)).1 hp
    split at h
    · cases h
    · next hg =>
      dsimp only at h
      split at h
      · next hn => cases h; exact .inl ⟨hf, needGuarded_eq_none.1 hg, hn, rfl⟩
      · next hn => cases h; exact .inr (.inl ⟨hf, needGuarded_eq_none.1 hg, Nat.pos_of_ne_zero hn, rfl⟩)
  · next r n hp =>
    split at h
    · cases h
    · next hr =>
      split at h
      · cases h
      · next v hv => cases h; exact .inr (.inr (.inl ⟨r, n, v, (State.progress_at_iff s _ _).1 hp, hr, hv, rfl⟩))
  · next r n hp => cases h; exact .inr (.inr (.inr ⟨r, n, (State.progress_at_iff s _ _).1 hp, rfl⟩))
  · cases h

/-- WRGN (R188). -/
theorem execWrgn_next {needed : Word} {s t : State} (h : execWrgn needed s = .next t) :
    s.portFree .producer ∧ s.phaseP = .guarded ∧
      ((s.contiguousFree < needed.toNat ∧ t = s.finish .producer noRegion) ∨
        (needed.toNat ≤ s.contiguousFree ∧
          t = ({ s with wregion := some ⟨s.wp, s.contiguousFree⟩, winWritten := [], phaseP := .region }).finish
            .producer
            (done s.wp (BitVec.ofNat 32 s.contiguousFree)))) := by
  obtain ⟨hf, hb⟩ := oneStep_next h
  split at hb
  · cases hb
  · next hg =>
    refine ⟨hf, needGuarded_eq_none.1 hg, ?_⟩
    dsimp only at hb
    split at hb
    · next hc => cases hb; exact .inl ⟨hc, rfl⟩
    · next hc => cases hb; exact .inr ⟨by omega, rfl⟩

/-- WCOMMIT (R189, R325). -/
theorem execWcommit_next {written : Word} {s t : State} (h : execWcommit written s = .next t) :
    s.portFree .producer ∧ s.phaseP = .region ∧ ∃ g, s.wregion = some g ∧ written.toNat ≤ g.len ∧
      (∀ k < written.toNat, g.base.toNat + k ∈ s.winWritten) ∧
      t = ({ s with
          wp := advancePos s.mask g.base written.toNat, wregion := none, winWritten := []
          phaseP := .guarded }).finish .producer (done 0 0) := by
  obtain ⟨hf, hb⟩ := oneStep_next h
  split at hb
  · cases hb
  · cases hb
  · next g hg hw =>
    split at hb
    · next hl =>
      split at hb
      · next ha => cases hb; exact ⟨hf, needRegion_eq_none.1 hg, g, hw, hl, allWritten_iff.1 ha, rfl⟩
      · cases hb
    · cases hb

/-- RRGN (R192). -/
theorem execRrgn_next {needed : Word} {s t : State} (h : execRrgn needed s = .next t) :
    s.portFree .consumer ∧ s.phaseC = .guarded ∧
      ((s.contiguousAvail < needed.toNat ∧ t = s.finish .consumer noRegion) ∨
        (needed.toNat ≤ s.contiguousAvail ∧
          t = ({ s with rregion := some ⟨s.rp, s.contiguousAvail⟩, phaseC := .region }).finish .consumer
            (done s.rp (BitVec.ofNat 32 s.contiguousAvail)))) := by
  obtain ⟨hf, hb⟩ := oneStep_next h
  split at hb
  · cases hb
  · next hg =>
    refine ⟨hf, needGuarded_eq_none.1 hg, ?_⟩
    dsimp only at hb
    split at hb
    · next hc => cases hb; exact .inl ⟨hc, rfl⟩
    · next hc => cases hb; exact .inr ⟨by omega, rfl⟩

/-- RADV (R193). -/
theorem execRadv_next {bytes : Word} {s t : State} (h : execRadv bytes s = .next t) :
    s.portFree .consumer ∧ s.phaseC = .region ∧ ∃ g, s.rregion = some g ∧ bytes.toNat ≤ g.len ∧
      t = ({ s with rp := advancePos s.mask g.base bytes.toNat, rregion := none, phaseC := .guarded }).finish
        .consumer (done 0 0) := by
  obtain ⟨hf, hb⟩ := oneStep_next h
  split at hb
  · cases hb
  · cases hb
  · next g hg hw =>
    split at hb
    · next hl => cases hb; exact ⟨hf, needRegion_eq_none.1 hg, g, hw, hl, rfl⟩
    · cases hb

/-- AVAIL and FREE (R196, R197). -/
theorem snapshot_next {i : Instr} {v : Word} {s t : State} (h : snapshot i v s = .next t) :
    s.portFree i.port ∧ s.needSnapshot i.port = none ∧ t = s.finish i.port (done v 0) := by
  obtain ⟨hf, hb⟩ := oneStep_next h
  split at hb
  · cases hb
  · next hn => cases hb; exact ⟨hf, hn, rfl⟩

/-- The converting pushes (R220). -/
theorem convertPush_next {k : Converting} {s t : State} (hport : k.instr.port = .producer)
    (h : convertPush k s = .next t) :
    (s.portFree .producer ∧ s.phaseP = .guarded ∧ bound k.len.toNat k.uin k.uout s.free.toNat = 0 ∧
      t = s.finish .producer (done 0 0)) ∨
    (s.portFree .producer ∧ s.phaseP = .guarded ∧ 0 < bound k.len.toNat k.uin k.uout s.free.toNat ∧
      t = s.goTo k.instr (.move s.wp (bound k.len.toNat k.uin k.uout s.free.toNat))) ∨
    (∃ w n u, s.atStage k.instr (.move w n) ∧ s.hostRefusal .producer (k.reads n) [] = none ∧
      (k.convert n s).1.stgWrite k.buf 0 (k.convert n s).2 = some u ∧ t = u.goTo k.instr (.transfer w n)) ∨
    (∃ w n out u, s.atStage k.instr (.transfer w n) ∧ s.stgRead k.buf 0 (k.uout * n) = some out ∧
      s.ringPut w out = some u ∧ t = u.goTo k.instr (.publish w n)) ∨
    (∃ w n, s.atStage k.instr (.publish w n) ∧
      t = ({ s with wp := advancePos s.mask w (k.uout * n) }).finish .producer
        (done (BitVec.ofNat 32 (k.uin * n)) 0)) := by
  unfold convertPush at h
  split at h
  · next hp =>
    have hf : s.portFree .producer := hport ▸ (State.progress_fresh_iff s k.instr).1 hp
    split at h
    · cases h
    · next hg =>
      dsimp only at h
      split at h
      · next hn => cases h; exact .inl ⟨hf, needGuarded_eq_none.1 hg, hn, rfl⟩
      · next hn => cases h; exact .inr (.inl ⟨hf, needGuarded_eq_none.1 hg, Nat.pos_of_ne_zero hn, rfl⟩)
  · next w n hp =>
    split at h
    · cases h
    · next hr =>
      split at h
      · cases h
      · next u hu =>
        cases h; exact .inr (.inr (.inl ⟨w, n, u, (State.progress_at_iff s _ _).1 hp, hr, hu, rfl⟩))
  · next w n hp =>
    split at h
    · cases h
    · next out ho =>
      split at h
      · cases h
      · next u hu =>
        cases h; exact .inr (.inr (.inr (.inl ⟨w, n, out, u, (State.progress_at_iff s _ _).1 hp, ho, hu, rfl⟩)))
  · next w n hp => cases h; exact .inr (.inr (.inr (.inr ⟨w, n, (State.progress_at_iff s _ _).1 hp, rfl⟩)))
  · cases h

/-- S24HINT (R227). -/
theorem execS24hint_next {p : Port} {hint : S24Hint} {s t : State} (h : execS24hint p hint s = .next t) :
    s.portFree p ∧ ((p = .consumer ∧ t = s.finish p illegalResponse) ∨
      (p ≠ .consumer ∧ s.needHint p = none ∧ t = (s.applyHint hint).finish p (done 0 0))) := by
  obtain ⟨hf, hb⟩ := oneStep_next h
  split at hb
  · next hc => cases hb; exact ⟨hf, .inl ⟨hc, rfl⟩⟩
  · next hc =>
    split at hb
    · cases hb
    · next hn => cases hb; exact ⟨hf, .inr ⟨hc, hn, rfl⟩⟩

/-- GENTER (R251). -/
theorem execGenter_next {p : DataPort} {s t : State} (h : execGenter p s = .next t) :
    (s.portFree p.port ∧ s.phase p = .idle ∧ s.reconfig = true ∧ t = s.finish p.port inactive) ∨
    (s.portFree p.port ∧ s.phase p = .idle ∧ s.reconfig = false ∧ t = s.goTo (.genter p) .g2) ∨
    (s.atStage (.genter p) .g2 ∧ t = s.incUsers.goTo (.genter p) .g3) ∨
    (s.atStage (.genter p) .g3 ∧ t = s.goTo (.genter p) (.g4 s.reconfig)) ∨
    (s.atStage (.genter p) (.g4 true) ∧ t = s.decUsers.finish p.port inactive) ∨
    (s.atStage (.genter p) (.g4 false) ∧ t = (s.setGuard p true .guarded).finish p.port (done 0 0)) := by
  unfold execGenter at h
  split at h
  · next hp =>
    have hf : s.portFree p.port := (State.progress_fresh_iff s (.genter p)).1 hp
    split at h
    · next hi =>
      split at h
      · next hr => cases h; exact .inl ⟨hf, hi, hr, rfl⟩
      · next hr => cases h; exact .inr (.inl ⟨hf, hi, by simpa using hr, rfl⟩)
    · cases h
  · next hp => cases h; exact .inr (.inr (.inl ⟨(State.progress_at_iff s _ _).1 hp, rfl⟩))
  · next hp => cases h; exact .inr (.inr (.inr (.inl ⟨(State.progress_at_iff s _ _).1 hp, rfl⟩)))
  · next f hp =>
    cases f
    · cases h; exact .inr (.inr (.inr (.inr (.inr ⟨(State.progress_at_iff s _ _).1 hp, rfl⟩))))
    · cases h; exact .inr (.inr (.inr (.inr (.inl ⟨(State.progress_at_iff s _ _).1 hp, rfl⟩))))
  · cases h

/-- GEXIT (R254). -/
theorem execGexit_next {p : DataPort} {s t : State} (h : execGexit p s = .next t) :
    s.portFree p.port ∧ s.phase p ≠ .region ∧
      t = ((if s.reg p then s.decUsers else s).setGuard p false .idle).finish p.port (done 0 0) := by
  obtain ⟨hf, hb⟩ := oneStep_next h
  split at hb
  · cases hb
  · next hr => cases hb; exact ⟨hf, hr, rfl⟩

/-- RENTER (R256, R258). -/
theorem execRenter_next {s t : State} (h : execRenter s = .next t) :
    (s.portFree .config ∧ s.phaseK = .idle ∧ s.reconfig = false ∧
      t = ({ s with reconfig := true, phaseK := .waiting }).goTo .renter .r2) ∨
    (s.atStage .renter .r2 ∧ s.activeUsers = 0 ∧ t = ({ s with phaseK := .excl }).finish .config (done 0 0)) ∨
    (s.atStage .renter .r2 ∧ s.activeUsers ≠ 0 ∧ t = s) := by
  unfold execRenter at h
  split at h
  · next hp =>
    split at h
    · next hc => cases h; exact .inl ⟨(State.progress_fresh_iff s .renter).1 hp, hc.1, hc.2, rfl⟩
    · cases h
  · next hp =>
    split at h
    · next hc => cases h; exact .inr (.inl ⟨(State.progress_at_iff s _ _).1 hp, hc, rfl⟩)
    · next hc => cases h; exact .inr (.inr ⟨(State.progress_at_iff s _ _).1 hp, hc, rfl⟩)
  · cases h

/-- One step of SETFMT (R262). -/
theorem fmtStep_cases (f : Format) (pending : List FmtField) (s : State) :
    (pending = [] ∧ fmtStep f pending s = ({ s with fmtGen := s.fmtGen + 1 }).finish .config (done 0 0)) ∨
    ∃ x ∈ pending, fmtStep f pending s =
      ({ s with fmt := storeField s.fmt f x }).goTo (.setfmt f) (.fmtStore (pending.erase x)) := by
  unfold fmtStep pickField
  cases hp : pending with
  | nil => exact .inl ⟨rfl, rfl⟩
  | cons y ys =>
    right
    have hl : s.choice % (y :: ys).length < (y :: ys).length := Nat.mod_lt _ (by simp)
    rw [List.getElem?_eq_getElem hl]
    exact ⟨_, List.getElem_mem hl, rfl⟩

/-- SETFMT (R262). -/
theorem execSetfmt_next {f : Format} {s t : State} (h : execSetfmt f s = .next t) :
    (s.portFree .config ∧ s.phaseK = .excl ∧ ∃ x ∈ allFmtFields,
      t = ({ s with fmt := storeField s.fmt f x }).goTo (.setfmt f) (.fmtStore (allFmtFields.erase x))) ∨
    (∃ pending, s.atStage (.setfmt f) (.fmtStore pending) ∧ ∃ x ∈ pending,
      t = ({ s with fmt := storeField s.fmt f x }).goTo (.setfmt f) (.fmtStore (pending.erase x))) ∨
    (s.atStage (.setfmt f) (.fmtStore []) ∧
      t = ({ s with fmtGen := s.fmtGen + 1 }).finish .config (done 0 0)) := by
  unfold execSetfmt at h
  split at h
  · next hp =>
    split at h
    · cases h
    · next he =>
      cases h
      rcases fmtStep_cases f allFmtFields s with ⟨h0, -⟩ | ⟨x, hx, ht⟩
      · simp [allFmtFields] at h0
      · exact .inl ⟨(State.progress_fresh_iff s (.setfmt f)).1 hp, needExcl_eq_none.1 he, x, hx, ht⟩
  · next pending hp =>
    cases h
    have ha := (State.progress_at_iff s (.setfmt f) (.fmtStore pending)).1 hp
    rcases fmtStep_cases f pending s with ⟨h0, ht⟩ | ⟨x, hx, ht⟩
    · exact .inr (.inr ⟨h0 ▸ ha, ht⟩)
    · exact .inr (.inl ⟨pending, ha, x, hx, ht⟩)
  · cases h

/-- RDREG (R265). -/
theorem execRdreg_next {p : Port} {reg : RegNum} {s t : State} (h : execRdreg p reg s = .next t) :
    s.portFree p ∧ t = s.finish p (done ((s.readReg reg).extractLsb' 0 32) ((s.readReg reg).extractLsb' 32 32)) := by
  unfold execRdreg at h
  split at h
  · next hp => cases h; exact ⟨(State.progress_fresh_iff s (.rdreg p reg)).1 hp, rfl⟩
  · cases h

/-- A window write (R190). -/
theorem winWrite_next {off : Word} {v : List Byte} {s t : State} (h : winWrite off v s = .next t) :
    s.phaseP = .region ∧ insideRegion s.wregion off.toNat v.length = true ∧ ∃ u, s.ringWrite off.toNat v = some u ∧
      t = { u with winWritten := addOffsets s.winWritten off.toNat v.length } := by
  unfold winWrite at h
  split at h
  · next hc =>
    split at h
    · cases h
    · next u hw => cases h; exact ⟨hc.1, hc.2, u, hw, rfl⟩
  · cases h

/-- A window read (R194). -/
theorem winRead_next {off n : Word} {s t : State} (h : winRead off n s = .next t) :
    s.phaseC = .region ∧ insideRegion s.rregion off.toNat n.toNat = true ∧
      ∃ v, s.ringRead off.toNat n.toNat = some v ∧ t = { s with window := v } := by
  unfold winRead at h
  split at h
  · next hc =>
    split at h
    · cases h
    · next v hv => cases h; exact ⟨hc.1, hc.2, v, hv, rfl⟩
  · cases h

/-- An agent's store into HOST memory (R72). -/
theorem hostStore_next {addr : Word} {v : List Byte} {s t : State} (h : hostStore addr v s = .next t) :
    addr.toNat + v.length ≤ hostSize ∧ t = s.memWriteHost addr.toNat v := by
  unfold hostStore at h
  split at h
  · cases h
  · next hr =>
    split at h
    · cases h
    · split at h
      · cases h
      · cases h
        exact ⟨by simpa [rangesInHost, rangeAt] using hr, rfl⟩

/-- A decoded command belongs to the port it was taken from (R116). -/
theorem decode_port {cfg : Config} {p : Port} {d : Descriptor} {i : Instr} (h : decode cfg p d = .ok i) :
    ∃ m, mnemonicOf d.opc = some m ∧ p ∈ m.ports ∧ d.unusedZero m.layout = true ∧ m.assemble cfg p d = some i := by
  unfold decode at h
  split at h
  · cases h
  · next m hm =>
    split at h
    · next hp =>
      split at h
      · next hu =>
        split at h
        · cases h
        · next j hj => cases h; exact ⟨m, hm, hp, hu, hj⟩
      · cases h
    · cases h

/-- A port's turn (R290, R285). -/
theorem turn_next {p : Port} {s t : State} (h : turn p s = .next t) :
    (∃ c, (s.lane p).inflight = some c ∧ exec c.instr s = .next t) ∨
    ((s.lane p).inflight = none ∧ (s.lane p).stream = [] ∧ t = s) ∨
    (∃ d ds, (s.lane p).inflight = none ∧ (s.lane p).stream = d :: ds ∧ s.fatal = true ∧
      t = (s.setLane p ⟨ds, none, none⟩).finish p (fatalResponse s.fatalCode)) ∨
    (∃ d ds e, (s.lane p).inflight = none ∧ (s.lane p).stream = d :: ds ∧ s.fatal = false ∧
      decode s.cfg p d = .error e ∧ t = (s.setLane p ⟨ds, none, none⟩).finish p illegalResponse) ∨
    (∃ d ds i, (s.lane p).inflight = none ∧ (s.lane p).stream = d :: ds ∧ s.fatal = false ∧
      decode s.cfg p d = .ok i ∧ exec i (s.setLane p ⟨ds, none, none⟩) = .next t) := by
  unfold turn at h
  split at h
  · next c hc => exact .inl ⟨c, hc, h⟩
  · next hn =>
    split at h
    · next hs => cases h; exact .inr (.inl ⟨hn, hs, rfl⟩)
    · next d ds hs =>
      unfold takeCommand at h
      simp only [State.setLane_fatal, State.setLane_fatalCode, State.setLane_cfg] at h
      split at h
      · next hf => cases h; exact .inr (.inr (.inl ⟨d, ds, hn, hs, hf, rfl⟩))
      · next hf =>
        split at h
        · next e he => cases h; exact .inr (.inr (.inr (.inl ⟨d, ds, e, hn, hs, by simpa using hf, he, rfl⟩)))
        · next i hi => exact .inr (.inr (.inr (.inr ⟨d, ds, i, hn, hs, by simpa using hf, hi, h⟩)))

/-- One step of the machine: nothing scheduled, or one entry of the schedule. -/
theorem step_next {s t : State} (h : step s = .next t) :
    (s.schedule = [] ∧ t = s) ∨ ∃ e es, s.schedule = e :: es ∧ handle e { s with schedule := es } = .next t := by
  unfold step nextEvent at h
  split at h
  · next hs => cases h; exact .inl ⟨hs, rfl⟩
  · next e es hs => exact .inr ⟨e, es, hs, h⟩

end Sys2Proof.Machine
end

