-- ==== Sys2Proof/Laws/PerInstr.lean ====
section
/-! SUPPORT. Per-instruction family EncodesOwnRow: a command's descriptor carries the opcode of its own row and no
bit outside its row's fields (spec/30_encoding.md R111, R114, R122). -/

namespace Sys2Proof.Laws

theorem opc_packW0 (a b c d : Byte) (w1 w2 w3 : Word) : (Descriptor.mk (packW0 a b c d) w1 w2 w3).opc = a := by
  apply BitVec.eq_of_getLsbD_eq
  intro i hi
  simp only [Descriptor.opc, packW0, BitVec.getLsbD_extractLsb', BitVec.getLsbD_append]
  have h1 : ¬ 24 + i < 8 := by omega
  have h2 : ¬ 24 + i - 8 < 8 := by omega
  have h3 : ¬ 24 + i - 8 - 8 < 8 := by omega
  have h4 : 24 + i - 8 - 8 - 8 = i := by omega
  simp [h1, h2, h3, h4, hi]

theorem mod_packW0 (a b c d : Byte) (w1 w2 w3 : Word) : (Descriptor.mk (packW0 a b c d) w1 w2 w3).mod = b := by
  apply BitVec.eq_of_getLsbD_eq
  intro i hi
  simp only [Descriptor.mod, packW0, BitVec.getLsbD_extractLsb', BitVec.getLsbD_append]
  have h1 : ¬ 16 + i < 8 := by omega
  have h2 : ¬ 16 + i - 8 < 8 := by omega
  have h3 : 16 + i - 8 - 8 = i := by omega
  simp [h1, h2, h3, hi]

theorem immb_packW0 (a b c d : Byte) (w1 w2 w3 : Word) : (Descriptor.mk (packW0 a b c d) w1 w2 w3).immb = c := by
  apply BitVec.eq_of_getLsbD_eq
  intro i hi
  simp only [Descriptor.immb, packW0, BitVec.getLsbD_extractLsb', BitVec.getLsbD_append]
  have h1 : ¬ 8 + i < 8 := by omega
  have h2 : 8 + i - 8 = i := by omega
  simp [h2, hi]

theorem imma_packW0 (a b c d : Byte) (w1 w2 w3 : Word) : (Descriptor.mk (packW0 a b c d) w1 w2 w3).imma = d := by
  apply BitVec.eq_of_getLsbD_eq
  intro i hi
  simp only [Descriptor.imma, packW0, BitVec.getLsbD_extractLsb', BitVec.getLsbD_append]
  simp [hi]

/-- The statement of the family. -/
def EncodesOwnRow.Statement (i : Instr) : Prop :=
  (encode i).opc = i.mnemonic.opcode ∧ (encode i).unusedZero i.mnemonic.layout = true

theorem flagBits_within_layout : ∀ a b c d e g : Bool,
    ((0 : BitVec 2) ++ bit a ++ bit b ++ bit c ++ bit d ++ bit e ++ bit g : Byte) &&& ~~~(0x3F : Byte) = 0 := by
  decide

theorem flags_within_layout (f : Format) : f.flags &&& ~~~(0x3F : Byte) = 0 := flagBits_within_layout _ _ _ _ _ _

theorem formatWord_within_layout (a b c : Byte) :
    ((0 : Byte) ++ a ++ b ++ c : Word) &&& ~~~(0x00FFFFFF : Word) = 0 := by
  have h : ~~~(0x00FFFFFF : Word) = 4278190080#32 := by decide
  rw [h]
  apply BitVec.eq_of_getLsbD_eq
  intro i hi
  simp only [BitVec.getLsbD_and, BitVec.getLsbD_append]
  by_cases h8 : i < 24
  · have : (4278190080#32).getLsbD i = false := by interval_cases i <;> decide
    simp [this]
  · have h1 : ¬ i < 8 := by omega
    have h2 : ¬ i - 8 < 8 := by omega
    have h3 : ¬ i - 8 - 8 < 8 := by omega
    simp [h1, h2, h3]

theorem EncodesOwnRow.copyf (p : Port) (dst src n : Word) : EncodesOwnRow.Statement (.copyf p dst src n) := by
  simp [EncodesOwnRow.Statement, encode, Instr.mnemonic, Mnemonic.layout, Descriptor.unusedZero, opc_packW0, mod_packW0, immb_packW0, imma_packW0]

theorem EncodesOwnRow.copyw (p : Port) (dst src n : Word) : EncodesOwnRow.Statement (.copyw p dst src n) := by
  simp [EncodesOwnRow.Statement, encode, Instr.mnemonic, Mnemonic.layout, Descriptor.unusedZero, opc_packW0, mod_packW0, immb_packW0, imma_packW0]

theorem EncodesOwnRow.push (src len : Word) : EncodesOwnRow.Statement (.push src len) := by
  simp [EncodesOwnRow.Statement, encode, Instr.mnemonic, Mnemonic.layout, Descriptor.unusedZero, opc_packW0, mod_packW0, immb_packW0, imma_packW0]

theorem EncodesOwnRow.pop (dst len : Word) : EncodesOwnRow.Statement (.pop dst len) := by
  simp [EncodesOwnRow.Statement, encode, Instr.mnemonic, Mnemonic.layout, Descriptor.unusedZero, opc_packW0, mod_packW0, immb_packW0, imma_packW0]

theorem EncodesOwnRow.wrgn (needed : Word) : EncodesOwnRow.Statement (.wrgn needed) := by
  simp [EncodesOwnRow.Statement, encode, Instr.mnemonic, Mnemonic.layout, Descriptor.unusedZero, opc_packW0, mod_packW0, immb_packW0, imma_packW0]

theorem EncodesOwnRow.wcommit (written : Word) : EncodesOwnRow.Statement (.wcommit written) := by
  simp [EncodesOwnRow.Statement, encode, Instr.mnemonic, Mnemonic.layout, Descriptor.unusedZero, opc_packW0, mod_packW0, immb_packW0, imma_packW0]

theorem EncodesOwnRow.rrgn (needed : Word) : EncodesOwnRow.Statement (.rrgn needed) := by
  simp [EncodesOwnRow.Statement, encode, Instr.mnemonic, Mnemonic.layout, Descriptor.unusedZero, opc_packW0, mod_packW0, immb_packW0, imma_packW0]

theorem EncodesOwnRow.radv (bytes : Word) : EncodesOwnRow.Statement (.radv bytes) := by
  simp [EncodesOwnRow.Statement, encode, Instr.mnemonic, Mnemonic.layout, Descriptor.unusedZero, opc_packW0, mod_packW0, immb_packW0, imma_packW0]

theorem EncodesOwnRow.avail (p : Port) : EncodesOwnRow.Statement (.avail p) := by
  unfold EncodesOwnRow.Statement; cases p <;> decide

theorem EncodesOwnRow.free (p : Port) : EncodesOwnRow.Statement (.free p) := by
  unfold EncodesOwnRow.Statement; cases p <;> decide

theorem EncodesOwnRow.resize (capacity : Word) (silenceByte : Byte) :
    EncodesOwnRow.Statement (.resize capacity silenceByte) := by
  simp [EncodesOwnRow.Statement, encode, Instr.mnemonic, Mnemonic.layout, Descriptor.unusedZero, opc_packW0, mod_packW0, immb_packW0, imma_packW0]

theorem EncodesOwnRow.clear : EncodesOwnRow.Statement .clear := by
  unfold EncodesOwnRow.Statement; decide

theorem EncodesOwnRow.push24 (src len : Word) : EncodesOwnRow.Statement (.push24 src len) := by
  simp [EncodesOwnRow.Statement, encode, Instr.mnemonic, Mnemonic.layout, Descriptor.unusedZero, opc_packW0, mod_packW0, immb_packW0, imma_packW0]

theorem EncodesOwnRow.push16 (src len : Word) : EncodesOwnRow.Statement (.push16 src len) := by
  simp [EncodesOwnRow.Statement, encode, Instr.mnemonic, Mnemonic.layout, Descriptor.unusedZero, opc_packW0, mod_packW0, immb_packW0, imma_packW0]

theorem EncodesOwnRow.pushdsd (src len : Word) (channels : Byte) (rev swap : Bool) :
    EncodesOwnRow.Statement (.pushdsd src len channels rev swap) := by
  cases rev <;> cases swap <;> simp [EncodesOwnRow.Statement, encode, Instr.mnemonic, Mnemonic.layout, Descriptor.unusedZero, opc_packW0, mod_packW0, immb_packW0, imma_packW0, bit]

theorem EncodesOwnRow.s24hint (p : Port) (hint : S24Hint) : EncodesOwnRow.Statement (.s24hint p hint) := by
  unfold EncodesOwnRow.Statement; cases p <;> cases hint <;> decide

theorem EncodesOwnRow.genter (p : DataPort) : EncodesOwnRow.Statement (.genter p) := by
  unfold EncodesOwnRow.Statement; cases p <;> decide

theorem EncodesOwnRow.gexit (p : DataPort) : EncodesOwnRow.Statement (.gexit p) := by
  unfold EncodesOwnRow.Statement; cases p <;> decide

theorem EncodesOwnRow.renter : EncodesOwnRow.Statement .renter := by
  unfold EncodesOwnRow.Statement; decide

theorem EncodesOwnRow.rexit : EncodesOwnRow.Statement .rexit := by
  unfold EncodesOwnRow.Statement; decide

theorem EncodesOwnRow.setfmt (f : Format) : EncodesOwnRow.Statement (.setfmt f) := by
  refine ⟨opc_packW0 _ _ _ _ _ _ _, ?_⟩
  simp only [encode, Instr.mnemonic, Mnemonic.layout, Descriptor.unusedZero, mod_packW0, immb_packW0, imma_packW0, flags_within_layout, formatWord_within_layout]
  simp

theorem EncodesOwnRow.rdreg (p : Port) (reg : RegNum) : EncodesOwnRow.Statement (.rdreg p reg) := by
  unfold EncodesOwnRow.Statement; cases p <;> cases reg <;> decide

end Sys2Proof.Laws
end

