-- ==== Sys2Proof/Tests/Slice0.lean ====
section
/-! SUPPORT. The model's own tests. Expected values are the spec's: the worked encodings of R132, the vectors of
spec/95_test_vectors.md (named in each comment) and the examples of the command rules. The second half shows, for each
statement with hypotheses, a state and operands that meet them. -/

namespace Sys2Proof.Tests

open Sys2Proof.Machine

/-! WellFormed refuses ill-formed terms, one per check (R124, R123), and takes their neighbours. -/

theorem test_wf_resize_too_large : (Instr.resize 0x40000001 0).wf Config.suggested = false := by decide
theorem test_wf_resize_largest : (Instr.resize 0x40000000 0).wf Config.suggested = true := by decide
theorem test_wf_pushdsd_no_channels : (Instr.pushdsd 0 16 0 false false).wf Config.suggested = false := by decide
theorem test_wf_pushdsd_one_channel : (Instr.pushdsd 0 16 1 false false).wf Config.suggested = true := by decide
theorem test_wf_s24hint_on_consumer : (Instr.s24hint .consumer .lsb).wf Config.suggested = false := by decide
theorem test_wf_s24hint_on_config : (Instr.s24hint .config .lsb).wf Config.suggested = true := by decide

/-! Decoding, a word of every command written out from R111, R112 and R114 (those of R132 first). -/

/-- What a descriptor decodes to on a port, at R11's suggested parameters. -/
def dec (p : Port) (w0 w1 w2 w3 : Word) : Option Instr := (decode Config.suggested p ⟨w0, w1, w2, w3⟩).toOption

theorem test_decode_resize : dec .config 0x28000069 0x00000010 0 0 = some (.resize 16 0x69) := by decide
theorem test_decode_push : dec .producer 0x20000000 0x00001000 0x00000384 0 = some (.push 0x1000 900) := by decide
theorem test_decode_pop : dec .consumer 0x21000000 0x00002000 0x00000320 0 = some (.pop 0x2000 800) := by decide
theorem test_decode_copyf :
    dec .producer 0x10000000 0x00003000 0x00001000 0x00000064 = some (.copyf .producer 0x3000 0x1000 100) := by decide
theorem test_decode_pushdsd :
    dec .producer 0x32030002 0x00002000 0x00000010 0 = some (.pushdsd 0x2000 16 2 true true) := by decide
theorem test_decode_pushdsd_swap_only :
    dec .producer 0x32020003 0x00002000 0x00000010 0 = some (.pushdsd 0x2000 16 3 false true) := by decide
theorem test_decode_s24hint : dec .producer 0x33000002 0 0 0 = some (.s24hint .producer .msb) := by decide
theorem test_decode_setfmt :
    (dec .config 0x44020000 0x0000AC44 0x00030402 0) =
      some (.setfmt { resetFormat with rate := 44100, channels := 2, bytesIn := 4, bytesOut := 3, pack24 := true }) := by
  decide
theorem test_decode_setfmt_flags :
    (dec .config 0x44290000 0 0 0) =
      some (.setfmt { resetFormat with dsd := true, dsdBitrev := true, lowbitrate := true }) := by decide
theorem test_decode_rdreg : dec .consumer 0x4500001A 0 0 0 = some (.rdreg .consumer .fmtGen) := by decide
theorem test_decode_genter : dec .producer 0x40000000 0 0 0 = some (.genter .producer) := by decide
theorem test_decode_copyw :
    dec .config 0x11000000 0x00003000 0x00001000 0x00000064 = some (.copyw .config 0x3000 0x1000 100) := by decide
theorem test_decode_wrgn : dec .producer 0x22000000 4 0 0 = some (.wrgn 4) := by decide
theorem test_decode_wcommit : dec .producer 0x23000000 3 0 0 = some (.wcommit 3) := by decide
theorem test_decode_rrgn : dec .consumer 0x24000000 6 0 0 = some (.rrgn 6) := by decide
theorem test_decode_radv : dec .consumer 0x25000000 6 0 0 = some (.radv 6) := by decide
theorem test_decode_avail : dec .config 0x26000000 0 0 0 = some (.avail .config) := by decide
theorem test_decode_free : dec .producer 0x27000000 0 0 0 = some (.free .producer) := by decide
theorem test_decode_clear : dec .config 0x29000000 0 0 0 = some .clear := by decide
theorem test_decode_push24 : dec .producer 0x30000000 0x100 32 0 = some (.push24 0x100 32) := by decide
theorem test_decode_push16 : dec .producer 0x31000000 0x100 7 0 = some (.push16 0x100 7) := by decide
theorem test_decode_gexit : dec .consumer 0x41000000 0 0 0 = some (.gexit .consumer) := by decide
theorem test_decode_renter : dec .config 0x42000000 0 0 0 = some .renter := by decide
theorem test_decode_rexit : dec .config 0x43000000 0 0 0 = some .rexit := by decide

/-! Refused descriptors of T-ENC-2, and the opcode table's numbering of a descriptor's bits. -/

theorem test_decode_zero : dec .config 0 0 0 0 = none := by decide
theorem test_decode_push_wrong_port : dec .consumer 0x20000000 0x1000 0x384 0 = none := by decide
theorem test_decode_push_imma : dec .producer 0x20000001 0x1000 0x384 0 = none := by decide
theorem test_decode_push_immb : dec .producer 0x20000100 0x1000 0x384 0 = none := by decide
theorem test_decode_push_mod : dec .producer 0x20010000 0x1000 0x384 0 = none := by decide
theorem test_decode_push_w3 : dec .producer 0x20000000 0x1000 0x384 1 = none := by decide
theorem test_decode_hint_three : dec .producer 0x33000003 0 0 0 = none := by decide
theorem test_table_word_push :
    decodeTableWord 128 (0x20000000 + 0x1000 * 2 ^ 32 + 0x384 * 2 ^ 64) = some (.push 0x1000 900) := by decide
theorem test_table_word_short : decodeTableWord 32 0x42000000 = some .renter := by decide

/-! One step of each command. -/

/-- The state a step leaves, if it leaves one. -/
def after : Result → Option State
  | .next s => some s
  | .fault _ => none
  | .refused _ => none

/-- The refusal of a step that is refused. -/
def refusal : Result → Option Refusal
  | .next _ => none
  | .fault _ => none
  | .refused r => some r

/-- The last response of a port after a step. -/
def answer (p : Port) (r : Result) : Option Response := (after r).bind (fun s => (s.lane p).resp)

/-- A ring of 2^k bytes with both positions given. -/
def ring (k : BitVec 6) (w r : Word) : State := { State.reset with sizeLog2 := k, wp := w, rp := r }

/-- The producer inside an Access Guard. -/
def asP (s : State) : State := { s with phaseP := .guarded, regP := true, activeUsers := 1 }

/-- The consumer inside an Access Guard. -/
def asC (s : State) : State := { s with phaseC := .guarded, regC := true, activeUsers := 1 }

/-- K with exclusive ownership. -/
def asK (s : State) : State := { s with reconfig := true, phaseK := .excl }

/-- HOST memory holding bytes at an address. -/
def withHost (s : State) (a : Nat) (v : List Byte) : State := s.memWriteHost a v

/-- The HOST bytes 1 to 5 at 0x1000. -/
def five : State := withHost State.reset 0x1000 [1, 2, 3, 4, 5]

/-- T-COPY-5. -/
theorem test_copyf_overlap :
    answer .consumer (exec (.copyf .consumer 0x101F 0x1000 0x20) State.reset) = some ⟨.fatal, 1, 0⟩ := by decide

/-- R145: bytes 0 to 4 arrive, the byte after them stays. -/
theorem test_copyf_moves :
    (after (exec (.copyf .producer 0x3000 0x1000 5) (five.goTo (.copyf .producer 0x3000 0x1000 5) .copyMove))).map
      (fun t => memRead hostFill t.host 0x3000 6) = some [1, 2, 3, 4, 5, 0] := by decide

/-- T-COPY-3. -/
theorem test_copyw_empty_is_no_overlap :
    (after (exec (.copyw .config 0x3000 0x3000 0) State.reset)).map (·.fatal) = some false := by decide

theorem test_copyw_moves :
    (after (exec (.copyw .config 0x3000 0x1000 4) (five.goTo (.copyw .config 0x3000 0x1000 4) .copyMove))).map
      (fun t => memRead hostFill t.host 0x3000 5) = some [1, 2, 3, 4, 0] := by decide

/-- The example of R184: 900 bytes into an empty ring of 1024. -/
theorem test_push_count :
    (after (exec (.push 0x1000 900) (asP (ring 10 0 0)))).map (·.progress (.push 0x1000 900)) =
      some (.at (.move 0 900)) := by decide

/-- R181: a move that crosses the end of the storage. -/
theorem test_push_wraps :
    (after (exec (.push 0x1000 5) ((withHost (asP (ring 4 14 10)) 0x1000 [1, 2, 3, 4, 5]).goTo (.push 0x1000 5)
      (.move 14 5)))).map (fun t => [t.ringByte 14, t.ringByte 15, t.ringByte 0, t.ringByte 1, t.ringByte 2,
        t.ringByte 3]) = some [1, 2, 3, 4, 5, 0] := by decide

/-- S9a, step 6: a short count. -/
theorem test_pop_count :
    (after (exec (.pop 0x2000 200) (asC (ring 10 76 1000)))).map (·.progress (.pop 0x2000 200)) =
      some (.at (.move 1000 100)) := by decide

/-- R186, step 3: the position moves on around the end. -/
theorem test_pop_publishes :
    (after (exec (.pop 0x2000 200) ((asC (ring 10 76 1000)).goTo (.pop 0x2000 200) (.publish 1000 100)))).map (·.rp) =
      some 76 := by decide

/-- The examples of R188. -/
theorem test_wrgn_grants :
    answer .producer (exec (.wrgn 4) (asP (ring 4 12 10))) = some ⟨.done, 12, 4⟩ := by decide
theorem test_wrgn_no_region :
    answer .producer (exec (.wrgn 5) (asP (ring 4 12 10))) = some ⟨.noregion, 0, 0⟩ := by decide

/-- The producer with the region of R188's example open and its first `n` bytes written through the window. -/
def opened (n : Nat) : State :=
  { asP (ring 4 12 10) with phaseP := .region, wregion := some ⟨12, 4⟩, winWritten := List.range' 12 n }

/-- All four of them written. -/
def writing : State := opened 4

/-- The examples of R189. -/
theorem test_wcommit_three : (after (exec (.wcommit 3) writing)).map (·.wp) = some 15 := by decide
theorem test_wcommit_wraps : (after (exec (.wcommit 4) writing)).map (·.wp) = some 0 := by decide

/-- R325: a byte of the region that was never written cannot be committed; a window write makes it so. -/
theorem test_wcommit_unwritten : refusal (exec (.wcommit 4) (opened 3)) = some .bytesNotWritten := by decide
theorem test_window_write_allows_commit :
    ((after (winWrite 13 [7, 0, 9] (opened 1))).bind (fun s => after (exec (.wcommit 4) s))).map
      (fun t => (t.wp, t.winWritten, t.ringByte 13, t.ringByte 15)) = some (0, [], 7, 9) := by decide

/-- The examples of R192. -/
theorem test_rrgn_grants :
    answer .consumer (exec (.rrgn 6) (asC (ring 4 5 10))) = some ⟨.done, 10, 6⟩ := by decide
theorem test_rrgn_no_region :
    answer .consumer (exec (.rrgn 7) (asC (ring 4 5 10))) = some ⟨.noregion, 0, 0⟩ := by decide

/-- The consumer with the region of R192's example open. -/
def reading : State := { asC (ring 4 5 10) with phaseC := .region, rregion := some ⟨10, 6⟩ }

/-- The example of R193. -/
theorem test_radv_wraps : (after (exec (.radv 6) reading)).map (·.rp) = some 0 := by decide
theorem test_radv_too_far : refusal (exec (.radv 7) reading) = some .grantExceeded := by decide

/-- The examples of R196 and R197. -/
theorem test_avail : answer .config (exec (.avail .config) (ring 10 76 800)) = some ⟨.done, 300, 0⟩ := by decide
theorem test_free : answer .config (exec (.free .config) (ring 10 76 800)) = some ⟨.done, 723, 0⟩ := by decide

/-- T-RING-0: 1000 rounds up to 1024, 1024 is kept. -/
theorem test_resize_rounds :
    (after (exec (.resize 1000 0) (asK State.reset))).map (·.size) = some 1024 := by decide
theorem test_resize_keeps_power :
    (after (exec (.resize 1024 0x69) (asK State.reset))).map (fun t => (t.size, t.ringByte 1023)) =
      some (1024, 0x69) := by decide

/-- R183. -/
theorem test_clear :
    (after (exec .clear (asK { ring 4 9 3 with silence := 0x69, ring := [(3, 7)], s24Confirmed := true }))).map
      (fun t => (t.wp, t.rp, t.ringByte 3, t.s24Confirmed)) = some (0, 0, 0x69, false) := by decide

/-- The example of R221: 8 samples, room for 5. -/
theorem test_push24_count :
    (after (exec (.push24 0 32) (asP (ring 4 0 0)))).map (·.progress (.push24 0 32)) = some (.at (.move 0 5)) := by
  decide

/-- S8a's first two samples: LSB is confirmed, and the call itself is packed with it. -/
theorem test_push24_detects_lsb :
    (after (exec (.push24 0 8) ((withHost (asP (ring 4 0 0)) 0 [0x10, 0x20, 0x30, 0, 0x11, 0x21, 0x31, 0]).goTo
      (.push24 0 8) (.move 0 2)))).map (fun t => (t.s24Mode, t.s24Confirmed, t.stg0.map (·.2))) =
        some (.lsbAligned, true, [0x10, 0x20, 0x30, 0x11, 0x21, 0x31]) := by decide

/-- T-P16: 3 samples of S6. -/
theorem test_push16_widens :
    (after (exec (.push16 0 7) ((withHost (asP (ring 5 0 0)) 0 [0x34, 0x12, 0xFF, 0x7F, 0x00, 0x80, 0x55]).goTo
      (.push16 0 7) (.move 0 3)))).map (fun t => memRead stagingFill t.stg1 0 12) =
        some [0, 0, 0x34, 0x12, 0, 0, 0xFF, 0x7F, 0, 0, 0x00, 0x80] := by decide
theorem test_push16_no_whole_sample :
    answer .producer (exec (.push16 0 1) (asP (ring 4 0 0))) = some ⟨.done, 0, 0⟩ := by decide

/-- T-DSD-1. -/
theorem test_pushdsd_swap :
    (after (exec (.pushdsd 0 16 3 false true) ((withHost (asP (ring 6 0 0)) 0 [1, 2, 3, 4, 5, 0x11, 0x12, 0x13, 0x14,
      0x15, 0x21, 0x22, 0x23, 0x24, 0x25, 0x99]).goTo (.pushdsd 0 16 3 false true) (.move 0 1)))).map
        (fun t => t.stg2.map (·.2)) =
          some [4, 3, 2, 1, 0x14, 0x13, 0x12, 0x11, 0x24, 0x23, 0x22, 0x21] := by decide

/-- T-DSD-7: the staging limit. -/
theorem test_pushdsd_count :
    (after (exec (.pushdsd 0 300000 3 false false) (asP (ring 18 0 0)))).map
      (·.progress (.pushdsd 0 300000 3 false false)) = some (.at (.move 0 5461)) := by decide

/-- The example of R227. -/
theorem test_s24hint_from_deferred :
    (after (exec (.s24hint .producer .msb) { asP State.reset with s24Mode := .deferred })).map
      (fun t => (t.s24Mode, t.s24Hint, t.s24Confirmed)) = some (.msbAligned, .msb, false) := by decide
theorem test_s24hint_keeps_alignment :
    (after (exec (.s24hint .config .msb) { asK State.reset with s24Mode := .lsbAligned })).map
      (fun t => (t.s24Mode, t.s24Hint)) = some (.lsbAligned, .msb) := by decide

/-- T-GUARD-2 and T-GUARD-6. -/
theorem test_genter_inactive :
    answer .consumer (exec (.genter .consumer) (asK State.reset)) = some ⟨.inactive, 0, 0⟩ := by decide
theorem test_genter_late_flag :
    (after (exec (.genter .producer) ({ State.reset with reconfig := true, activeUsers := 1 }.goTo (.genter .producer)
      (.g4 false)))).map (fun t => (t.regP, t.phaseP, t.activeUsers)) = some (true, .guarded, 1) := by decide

/-- T-GUARD-1 and R254's corner case. -/
theorem test_gexit_registered :
    (after (exec (.gexit .producer) (asP State.reset))).map (fun t => (t.regP, t.phaseP, t.activeUsers)) =
      some (false, .idle, 0) := by decide
theorem test_gexit_idle : (after (exec (.gexit .consumer) State.reset)).map (·.activeUsers) = some 0 := by decide

/-- T-GUARD-5: the wait. -/
theorem test_renter_waits :
    (after (exec .renter ({ asP State.reset with reconfig := true, phaseK := .waiting }.goTo .renter .r2))).map
      (·.phaseK) = some .waiting := by decide
theorem test_renter_grants :
    (after (exec .renter ({ State.reset with reconfig := true, phaseK := .waiting }.goTo .renter .r2))).map
      (·.phaseK) = some .excl := by decide

theorem test_rexit : (after (exec .rexit (asK State.reset))).map (fun t => (t.reconfig, t.phaseK)) =
    some (false, .idle) := by decide

/-- T-FMT-1's second descriptor, its last field store and its generation step. -/
theorem test_setfmt_stores :
    (after (exec (.setfmt { resetFormat with rate := 2822400 }) ((asK State.reset).goTo
      (.setfmt { resetFormat with rate := 2822400 }) (.fmtStore [.rate])))).map (·.fmt.rate) = some 2822400 := by decide
theorem test_setfmt_counts :
    (after (exec (.setfmt resetFormat) ((asK State.reset).goTo (.setfmt resetFormat) (.fmtStore [])))).map (·.fmtGen) =
      some 1 := by decide

/-- T-GUARD-1 and T-FMT-2. -/
theorem test_rdreg_guard :
    answer .config (exec (.rdreg .config .guardStatus) (asP State.reset)) = some ⟨.done, 0x0102, 0⟩ := by decide
theorem test_rdreg_s24 :
    answer .config (exec (.rdreg .config .s24Status)
      { State.reset with s24Mode := .lsbAligned, s24Hint := .msb, s24Confirmed := true }) =
        some ⟨.done, 0x19, 0⟩ := by decide

/-- The next step after `withFetchWord` runs the word: `K: RENTER` from reset. -/
theorem test_fetch_word : (after (step (State.reset.withFetchWord 128 0x42000000))).map (·.phaseK) = some .waiting := by
  decide

/-! Witnesses: for each statement with hypotheses, a state and operands that meet them, clause by clause and at the
edges of the ranges. -/

/-- The next thing that happens is a turn of port `p`. -/
def next (p : Port) (s : State) : State := { s with schedule := [.turn p 0] }

/-- A descriptor waiting on a port whose turn is next. -/
def waiting (p : Port) (d : Descriptor) (s : State) : State := next p (s.setLane p ⟨[d], none, none⟩)

/-! The parts of the invariant, from what can be computed of a concrete state. -/

theorem lanes_of (s : State) (h : ∀ p ∈ [Port.producer, .consumer, .config],
    (s.lane p).inflight.all (fun c => decide (c.instr.port = p) && c.legal) = true) : s.LanesInv := by
  intro p c hc
  have := h p (by cases p <;> decide)
  rw [hc] at this
  simpa using this

theorem guards_of (s : State)
    (h1 : ∀ p ∈ [DataPort.producer, .consumer], (s.reg p = true ↔ s.phase p ≠ .idle) ∧
      (s.genterStage p ≠ none → s.phase p = .idle) ∧
      (s.phaseK = .excl → s.reg p = false ∧ s.genterStage p ≠ some (.g4 false)))
    (h2 : s.activeUsers.toNat = s.usersOf .producer + s.usersOf .consumer)
    (h3 : s.reconfig = true ↔ s.phaseK ≠ .idle)
    (h4 : s.phaseK = .waiting ↔ s.laneK.inflight = some { instr := .renter, stage := .r2 })
    (h5 : s.phaseK = .excl ∨ s.laneK.inflight = none ∨ s.laneK.inflight = some ⟨.renter, .r2⟩) : s.GuardInv := by
  have hp : ∀ p : DataPort, p ∈ [DataPort.producer, .consumer] := fun p => by cases p <;> decide
  refine ⟨fun p => (h1 p (hp p)).1, fun p => (h1 p (hp p)).2.1, h2, h3, h4, fun h p => (h1 p (hp p)).2.2 h,
    fun f pending h => ?_⟩
  rcases h5 with h5 | h5 | h5
  · exact h5
  · rw [h5] at h
    cases h
  · rw [h5] at h
    cases h

theorem transfers_of (s : State)
    (hP : s.laneP.inflight.all (fun c => c.stage.pos.all
      (fun w => decide (w = s.wp ∧ c.ringCount ≤ s.free.toNat ∧ s.phaseP = .guarded))) = true)
    (hC : s.laneC.inflight.all (fun c => c.stage.pos.all
      (fun r => decide (r = s.rp ∧ c.ringCount ≤ s.avail.toNat ∧ s.phaseC = .guarded))) = true) :
    s.TransferInv := by
  refine ⟨fun c w h hw => ?_, fun c r h hr => ?_⟩
  · simpa [h, hw] using hP
  · simpa [h, hr] using hC

theorem regions_of (s : State) (h1 : s.phaseP = .region ↔ s.wregion ≠ none) (h2 : s.phaseC = .region ↔ s.rregion ≠ none)
    (hP : s.wregion.all (fun g =>
      decide (g.base = s.wp ∧ g.len ≤ s.free.toNat ∧ g.base.toNat + g.len ≤ s.size)) = true)
    (hC : s.rregion.all (fun g =>
      decide (g.base = s.rp ∧ g.len ≤ s.avail.toNat ∧ g.base.toNat + g.len ≤ s.size)) = true)
    (h3 : s.winWritten.Pairwise (· < ·))
    (h4 : ∀ o ∈ s.winWritten, s.wregion.any (fun g => decide (g.base.toNat ≤ o ∧ o < g.base.toNat + g.len)) = true) :
    s.RegionInv := by
  refine ⟨h1, h2, fun g h => ?_, fun g h => ?_, h3, fun o ho => ?_⟩
  · simpa [h] using hP
  · simpa [h] using hC
  · simpa [Option.any_eq_true] using h4 o ho

theorem witness_DecodeEncodeRoundTrip : (Instr.resize 0x40000000 0x69).wf Config.suggested = true := by decide

theorem witness_EncodeDecodeRoundTrip :
    decode Config.suggested .producer ⟨0x320300FF, 1, 2, 0⟩ = .ok (.pushdsd 1 2 255 true true) := by rfl

theorem witness_ReservedOperandsAreIllegal :
    (Port.producer ≠ .consumer) ∧ (∀ b ∈ ([0x09, 0x0F, 0x1B, 0xFF] : List Byte),
      (0x09 ≤ b.toNat ∧ b.toNat ≤ 0x0F) ∨ 0x1B ≤ b.toNat) ∧
    2 ^ Config.suggested.log2SizeMax < (0x40000001 : Word).toNat ∧ (3 : Byte).toNat < 4 := by decide

theorem witness_IllegalDescriptorChangesNothing :
    (waiting .consumer ⟨0, 0, 0, 0⟩ State.reset).schedule = .turn .consumer 0 :: [] ∧
    (waiting .consumer ⟨0, 0, 0, 0⟩ State.reset).lane .consumer = ⟨⟨0, 0, 0, 0⟩ :: [], none, none⟩ ∧
    (waiting .consumer ⟨0, 0, 0, 0⟩ State.reset).fatal = false ∧
    decode State.reset.cfg .consumer ⟨0, 0, 0, 0⟩ = .error .reservedOpcode := ⟨rfl, rfl, rfl, rfl⟩

theorem witness_StepRunsDecodedCommand :
    ((waiting .config ⟨0x42000000, 0, 0, 0⟩ State.reset).schedule = .turn .config 0 :: [] ∧
      (waiting .config ⟨0x42000000, 0, 0, 0⟩ State.reset).lane .config = ⟨⟨0x42000000, 0, 0, 0⟩ :: [], none, none⟩ ∧
      (waiting .config ⟨0x42000000, 0, 0, 0⟩ State.reset).fatal = false ∧
      decode State.reset.cfg .config ⟨0x42000000, 0, 0, 0⟩ = .ok .renter) ∧
    (next .config (State.reset.goTo .renter .r2)).schedule = .turn .config 0 :: [] ∧
    ((next .config (State.reset.goTo .renter .r2)).lane .config).inflight = some ⟨.renter, .r2⟩ :=
  ⟨⟨rfl, rfl, rfl, rfl⟩, rfl, rfl⟩

/-- A copy of 16 bytes to the top of HOST space. -/
def topCopy : Instr := .copyf .producer 0xFFFFFFF0 0x1000 16

theorem witness_CopiesMoveTheirBytes :
    State.reset.portFree .producer ∧ overlap 0x101F 0x1000 0x20 = true ∧ overlap 0x1020 0x1000 0x20 = false ∧
    (State.reset.goTo topCopy .copyMove).atStage topCopy .copyMove ∧
    (State.reset.goTo topCopy .copyMove).hostRefusal .producer [rangeAt 0x1000 16] [rangeAt 0xFFFFFFF0 16] = none ∧
    overlap 0xFFFFFFF0 0x1000 16 = false ∧
    (State.reset.goTo topCopy .copyDone).atStage topCopy .copyDone :=
  ⟨rfl, by decide, by decide, rfl, by decide, by decide, rfl⟩

theorem witness_OverlapRaisesFatal :
    State.reset.portFree .consumer ∧ 0 < (0x20 : Word).toNat ∧
    (0x101F : Word).toNat < (0x1000 : Word).toNat + (0x20 : Word).toNat ∧
    (0x1000 : Word).toNat < (0x101F : Word).toNat + (0x20 : Word).toNat := ⟨rfl, by decide, by decide, by decide⟩

theorem witness_FixedCopyEqualsPlainWrite : Memory.wf 0 hostSize [(5, 7), (9, 1)] = true := by decide

theorem witness_Pack24Layout : 4 * 2 ≤ ([1, 2, 3, 4, 5, 6, 7, 8] : List Byte).length := by decide

theorem witness_Up16Layout : 2 * 2 ≤ ([1, 2, 3, 4] : List Byte).length := by decide

theorem witness_DsdLayout : ∀ b ∈ ([[1, 2, 3, 4], [5, 6, 7, 8, 9]] : List (List Byte)), 4 * 1 ≤ b.length := by decide

theorem witness_BoundIsLargestFit : 0 < 4 ∧ 0 < 3 := by decide

theorem witness_OccupancyArithmetic :
    (ring 31 0x7FFFFFFF 0).sizeLog2.toNat ≤ 31 ∧ (ring 31 0x7FFFFFFF 0).wp.toNat < (ring 31 0x7FFFFFFF 0).size ∧
    (ring 31 0x7FFFFFFF 0).rp.toNat < (ring 31 0x7FFFFFFF 0).size := by decide

theorem witness_ResizeMakesEmptyRing : (asK State.reset).portFree .config ∧ (asK State.reset).phaseK = .excl :=
  ⟨rfl, rfl⟩

theorem witness_ClearEmptiesRing : (asK (ring 4 9 3)).portFree .config ∧ (asK (ring 4 9 3)).phaseK = .excl := ⟨rfl, rfl⟩

/-- The producer in the middle of a PUSH of 15 bytes from offset 15 of a ring of 16. -/
def pushing (st : Stage) : State := (asP (ring 4 15 15)).goTo (.push 0x1000 15) st

theorem witness_PushSteps :
    ((asP (ring 4 9 10)).portFree .producer ∧ (asP (ring 4 9 10)).phaseP = .guarded ∧
      min (0x10 : Word).toNat (asP (ring 4 9 10)).free.toNat = 0) ∧
    ((asP (ring 4 15 15)).portFree .producer ∧ (asP (ring 4 15 15)).phaseP = .guarded ∧
      0 < min (0x10 : Word).toNat (asP (ring 4 15 15)).free.toNat) ∧
    ((pushing (.move 15 15)).atStage (.push 0x1000 15) (.move 15 15) ∧
      (15 : Word).toNat < (pushing (.move 15 15)).size ∧ 15 < (pushing (.move 15 15)).size ∧
      (pushing (.move 15 15)).hostRefusal .producer [rangeAt 0x1000 15] [] = none) ∧
    (pushing (.publish 15 15)).atStage (.push 0x1000 15) (.publish 15 15) :=
  ⟨⟨rfl, rfl, by decide⟩, ⟨rfl, rfl, by decide⟩, ⟨rfl, by decide, by decide, by decide⟩, rfl⟩

/-- The consumer in the middle of a POP of 15 bytes from offset 10 of a full ring of 16. -/
def popping (st : Stage) : State := (asC (ring 4 9 10)).goTo (.pop 0x2000 15) st

theorem witness_PopSteps :
    ((asC (ring 4 9 9)).portFree .consumer ∧ (asC (ring 4 9 9)).phaseC = .guarded ∧
      min (0x10 : Word).toNat (asC (ring 4 9 9)).avail.toNat = 0) ∧
    ((asC (ring 4 9 10)).portFree .consumer ∧ (asC (ring 4 9 10)).phaseC = .guarded ∧
      0 < min (0x10 : Word).toNat (asC (ring 4 9 10)).avail.toNat) ∧
    ((popping (.move 10 15)).atStage (.pop 0x2000 15) (.move 10 15) ∧
      (10 : Word).toNat < (popping (.move 10 15)).size ∧ 15 < (popping (.move 10 15)).size ∧
      (popping (.move 10 15)).hostRefusal .consumer [] [rangeAt 0x2000 15] = none) ∧
    (popping (.publish 10 15)).atStage (.pop 0x2000 15) (.publish 10 15) :=
  ⟨⟨rfl, rfl, by decide⟩, ⟨rfl, rfl, by decide⟩, ⟨rfl, by decide, by decide, by decide⟩, rfl⟩

theorem witness_RegionRequests :
    ((asP (ring 4 12 10)).portFree .producer ∧ (asP (ring 4 12 10)).phaseP = .guarded ∧
      min (asP (ring 4 12 10)).free.toNat ((asP (ring 4 12 10)).size - (asP (ring 4 12 10)).wp.toNat) <
        (5 : Word).toNat ∧
      (4 : Word).toNat ≤ min (asP (ring 4 12 10)).free.toNat
        ((asP (ring 4 12 10)).size - (asP (ring 4 12 10)).wp.toNat)) ∧
    ((asC (ring 4 5 10)).portFree .consumer ∧ (asC (ring 4 5 10)).phaseC = .guarded ∧
      min (asC (ring 4 5 10)).avail.toNat ((asC (ring 4 5 10)).size - (asC (ring 4 5 10)).rp.toNat) <
        (7 : Word).toNat ∧
      (6 : Word).toNat ≤ min (asC (ring 4 5 10)).avail.toNat
        ((asC (ring 4 5 10)).size - (asC (ring 4 5 10)).rp.toNat)) :=
  ⟨⟨rfl, rfl, by decide, by decide⟩, rfl, rfl, by decide, by decide⟩

/-- One entry of the schedule next. -/
def entry (e : Event) (s : State) : State := { s with schedule := [e] }

/-- The producer's region of `writing`, 12 to 15: a write inside up to its end. -/
def writeIn : State := entry (.winWrite 14 [1, 2]) writing

theorem witness_RegionCommits :
    (writing.portFree .producer ∧ writing.phaseP = .region ∧ writing.wregion = some ⟨12, 4⟩ ∧ (4 : Word).toNat ≤ 4 ∧
      ∀ k < (4 : Word).toNat, (12 : Word).toNat + k ∈ writing.winWritten) ∧
    (writeIn.schedule = .winWrite 14 [1, 2] :: [] ∧ ∃ t, step writeIn = .next t) ∧
    reading.portFree .consumer ∧ reading.phaseC = .region ∧ reading.rregion = some ⟨10, 6⟩ ∧ (6 : Word).toNat ≤ 6 :=
  ⟨⟨rfl, rfl, rfl, by decide, by decide⟩, ⟨rfl, _, rfl⟩, rfl, rfl, rfl, by decide⟩

theorem witness_SnapshotsReadPositions :
    ((asP State.reset).portFree .producer ∧ (asP State.reset).phaseP ≠ .idle) ∧
    (reading.portFree .consumer ∧ reading.phaseC ≠ .idle) ∧ State.reset.portFree .config :=
  ⟨⟨rfl, by decide⟩, ⟨rfl, by decide⟩, rfl⟩

/-- One byte past its end, and one byte before its start. -/
def writePast : State := entry (.winWrite 14 [1, 2, 3]) writing
def writeBefore : State := entry (.winWrite 11 [1]) writing

/-- The whole of the consumer's region of `reading`, 10 to 15, and one byte past it. -/
def readIn : State := entry (.winRead 10 6) reading
def readPast : State := entry (.winRead 10 7) reading

theorem witness_WindowAccesses :
    (writeIn.schedule = .winWrite 14 [1, 2] :: [] ∧ writeIn.phaseP = .region ∧ writeIn.wregion = some ⟨12, 4⟩ ∧
      (12 : Word).toNat ≤ (14 : Word).toNat ∧
      (14 : Word).toNat + ([1, 2] : List Byte).length ≤ (12 : Word).toNat + 4 ∧
      (12 : Word).toNat + 4 ≤ writeIn.size) ∧
    (writePast.schedule = .winWrite 14 [1, 2, 3] :: [] ∧ writePast.wregion = some ⟨12, 4⟩ ∧
      (12 : Word).toNat + 4 < (14 : Word).toNat + ([1, 2, 3] : List Byte).length) ∧
    (writeBefore.schedule = .winWrite 11 [1] :: [] ∧ writeBefore.wregion = some ⟨12, 4⟩ ∧
      (11 : Word).toNat < (12 : Word).toNat) ∧
    ((entry (.winWrite 0 []) State.reset).schedule = .winWrite 0 [] :: [] ∧
      (entry (.winWrite 0 []) State.reset).phaseP ≠ .region) ∧
    (readIn.schedule = .winRead 10 6 :: [] ∧ readIn.phaseC = .region ∧ readIn.rregion = some ⟨10, 6⟩ ∧
      (10 : Word).toNat ≤ (10 : Word).toNat ∧ (10 : Word).toNat + (6 : Word).toNat ≤ (10 : Word).toNat + 6 ∧
      (10 : Word).toNat + 6 ≤ readIn.size) ∧
    (readPast.schedule = .winRead 10 7 :: [] ∧ readPast.rregion = some ⟨10, 6⟩ ∧
      (10 : Word).toNat + 6 < (10 : Word).toNat + (7 : Word).toNat) := by decide

theorem witness_PushAppendsPopTakes :
    ((asP (ring 4 15 15)).PositionsInv ∧ (asP (ring 4 15 15)).portFree .producer ∧
      (asP (ring 4 15 15)).phaseP = .guarded ∧ 0 < min (0x20 : Word).toNat (asP (ring 4 15 15)).free.toNat ∧
      (asP (ring 4 15 15)).hostRefusal .producer
        [rangeAt 0x1000 (min (0x20 : Word).toNat (asP (ring 4 15 15)).free.toNat)] [] = none) ∧
    ((asC (ring 4 9 10)).PositionsInv ∧ (asC (ring 4 9 10)).portFree .consumer ∧
      (asC (ring 4 9 10)).phaseC = .guarded ∧ 0 < min (0x20 : Word).toNat (asC (ring 4 9 10)).avail.toNat ∧
      (asC (ring 4 9 10)).hostRefusal .consumer []
        [rangeAt 0x2000 (min (0x20 : Word).toNat (asC (ring 4 9 10)).avail.toNat)] = none) := by
  refine ⟨⟨?_, rfl, rfl, by decide, by decide⟩, ?_, rfl, rfl, by decide, by decide⟩ <;>
    unfold State.PositionsInv <;> decide

theorem writing_regions : writing.RegionInv :=
  regions_of _ (by decide) (by decide) (by decide) (by decide) (by decide) (by decide)

/-- The zero-copy clauses, the whole of the region each. -/
theorem witness_PushAppendsPopTakes_zero_copy :
    (writing.PositionsInv ∧ writing.RegionInv ∧ writing.portFree .producer ∧ writing.phaseP = .region ∧
      writing.wregion = some ⟨12, 4⟩ ∧ (4 : Word).toNat ≤ 4 ∧
      ∀ k < (4 : Word).toNat, (12 : Word).toNat + k ∈ writing.winWritten) ∧
    (reading.PositionsInv ∧ reading.RegionInv ∧ reading.portFree .consumer ∧ reading.phaseC = .region ∧
      reading.rregion = some ⟨10, 6⟩ ∧ (6 : Word).toNat ≤ 6) ∧
    ((asP (ring 4 12 10)).PositionsInv ∧ (asP (ring 4 12 10)).portFree .producer ∧
      (asP (ring 4 12 10)).phaseP = .guarded ∧
      (4 : Word).toNat ≤ min (asP (ring 4 12 10)).free.toNat
        ((asP (ring 4 12 10)).size - (asP (ring 4 12 10)).wp.toNat)) ∧
    ((asC (ring 4 5 10)).PositionsInv ∧ (asC (ring 4 5 10)).portFree .consumer ∧ (asC (ring 4 5 10)).phaseC = .guarded ∧
      (6 : Word).toNat ≤ min (asC (ring 4 5 10)).avail.toNat
        ((asC (ring 4 5 10)).size - (asC (ring 4 5 10)).rp.toNat)) := by
  refine ⟨⟨?_, writing_regions, rfl, rfl, rfl, by decide, by decide⟩,
    ⟨?_, regions_of _ (by decide) (by decide) (by decide) (by decide) (by decide) (by decide), rfl, rfl, rfl,
      by decide⟩, ⟨?_, rfl, rfl, by decide⟩, ?_, rfl, rfl, by decide⟩ <;>
    unfold State.PositionsInv <;> decide

/-- The producer in the middle of a converting push. -/
def converting (i : Instr) (st : Stage) : State := (asP (ring 5 31 31)).goTo i st

theorem witness_Push24Steps :
    ((asP (ring 5 31 31)).portFree .producer ∧ (asP (ring 5 31 31)).phaseP = .guarded ∧
      min ((3 : Word).toNat / 4) (min 21845 ((asP (ring 5 31 31)).free.toNat / 3)) = 0 ∧
      0 < min ((4 : Word).toNat / 4) (min 21845 ((asP (ring 5 31 31)).free.toNat / 3))) ∧
    ((converting (.push24 0 40) (.move 31 10)).atStage (.push24 0 40) (.move 31 10) ∧ 3 * 10 ≤ 65536 ∧
      (converting (.push24 0 40) (.move 31 10)).hostRefusal .producer [rangeAt 0 (4 * 10)] [] = none) ∧
    ((converting (.push24 0 40) (.transfer 31 10)).atStage (.push24 0 40) (.transfer 31 10) ∧ 3 * 10 ≤ 65536 ∧
      (31 : Word).toNat < (converting (.push24 0 40) (.transfer 31 10)).size ∧
      3 * 10 < (converting (.push24 0 40) (.transfer 31 10)).size) ∧
    (converting (.push24 0 40) (.publish 31 10)).atStage (.push24 0 40) (.publish 31 10) :=
  ⟨⟨rfl, rfl, by decide, by decide⟩, ⟨rfl, by decide, by decide⟩, ⟨rfl, by decide, by decide, by decide⟩, rfl⟩

/-- A PUSH24 of one sample at its conversion step, with the sample and the S24 state given. -/
def detecting (v : List Byte) (count : Word) (confirmed : Bool) : State :=
  { withHost (converting (.push24 0 4) (.move 31 1)) 0 v with s24SilentCount := count, s24Confirmed := confirmed }

/-- The sample's low-position byte is 0, its high-position byte is 0, the step answers and the silence count after it. -/
def batch (s : State) : Option (Bool × Bool × Nat) :=
  (after (exec (.push24 0 4) s)).map (fun t => (s.hostByte 0 = 0, s.hostByte 3 = 0, t.s24SilentCount.toNat))

theorem witness_S24Detection :
    (detecting [1, 2, 3, 4] 0 true).atStage (.push24 0 4) (.move 31 1) ∧
    batch (detecting [1, 2, 3, 4] 0 true) = some (false, false, 0) ∧
    batch (detecting [1, 2, 3, 0] 0 false) = some (false, true, 0) ∧
    batch (detecting [0, 2, 3, 4] 0 false) = some (true, false, 0) ∧
    batch (detecting [0, 2, 3, 0] 47999 false) = some (true, true, 48000) ∧
    batch (detecting [0, 2, 3, 0] 48000 false) = some (true, true, 48001) ∧
    batch (detecting [1, 2, 3, 4] 0 false) = some (false, false, 0) :=
  ⟨rfl, by decide, by decide, by decide, by decide, by decide, by decide⟩

theorem witness_Push16Steps :
    ((asP (ring 5 31 31)).portFree .producer ∧ (asP (ring 5 31 31)).phaseP = .guarded ∧
      min ((1 : Word).toNat / 2) (min 16384 ((asP (ring 5 31 31)).free.toNat / 4)) = 0 ∧
      0 < min ((2 : Word).toNat / 2) (min 16384 ((asP (ring 5 31 31)).free.toNat / 4))) ∧
    ((converting (.push16 0 14) (.move 31 7)).atStage (.push16 0 14) (.move 31 7) ∧ 4 * 7 ≤ 65536 ∧
      (converting (.push16 0 14) (.move 31 7)).hostRefusal .producer [rangeAt 0 (2 * 7)] [] = none) ∧
    ((converting (.push16 0 14) (.transfer 31 7)).atStage (.push16 0 14) (.transfer 31 7) ∧ 4 * 7 ≤ 65536 ∧
      (31 : Word).toNat < (converting (.push16 0 14) (.transfer 31 7)).size ∧
      4 * 7 < (converting (.push16 0 14) (.transfer 31 7)).size) ∧
    (converting (.push16 0 14) (.publish 31 7)).atStage (.push16 0 14) (.publish 31 7) :=
  ⟨⟨rfl, rfl, by decide, by decide⟩, ⟨rfl, by decide, by decide⟩, ⟨rfl, by decide, by decide, by decide⟩, rfl⟩

theorem witness_PushDsdSteps :
    (2 : Byte) ≠ 0 ∧
    ((asP (ring 5 31 31)).portFree .producer ∧ (asP (ring 5 31 31)).phaseP = .guarded ∧
      min ((7 : Word).toNat / (2 : Byte).toNat / 4)
        (min (16384 / (2 : Byte).toNat) ((asP (ring 5 31 31)).free.toNat / (4 * (2 : Byte).toNat))) = 0 ∧
      0 < min ((8 : Word).toNat / (2 : Byte).toNat / 4)
        (min (16384 / (2 : Byte).toNat) ((asP (ring 5 31 31)).free.toNat / (4 * (2 : Byte).toNat)))) ∧
    ((converting (.pushdsd 0 25 2 true true) (.move 31 3)).atStage (.pushdsd 0 25 2 true true) (.move 31 3) ∧
      4 * (2 : Byte).toNat * 3 ≤ 65536 ∧
      (converting (.pushdsd 0 25 2 true true) (.move 31 3)).hostRefusal .producer
        (planarRanges 0 ((25 : Word).toNat / (2 : Byte).toNat) (4 * 3) (2 : Byte).toNat) [] = none) ∧
    ((converting (.pushdsd 0 25 2 true true) (.transfer 31 3)).atStage (.pushdsd 0 25 2 true true) (.transfer 31 3) ∧
      4 * (2 : Byte).toNat * 3 < (converting (.pushdsd 0 25 2 true true) (.transfer 31 3)).size ∧
      (31 : Word).toNat < (converting (.pushdsd 0 25 2 true true) (.transfer 31 3)).size) ∧
    (converting (.pushdsd 0 25 2 true true) (.publish 31 3)).atStage (.pushdsd 0 25 2 true true) (.publish 31 3) :=
  ⟨by decide, ⟨rfl, rfl, by decide, by decide⟩, ⟨rfl, by decide, by decide⟩, ⟨rfl, by decide, by decide⟩, rfl⟩

theorem witness_ConvertingPushesAppend :
    (asP (ring 5 31 31)).PositionsInv ∧ (asP (ring 5 31 31)).portFree .producer ∧
    (asP (ring 5 31 31)).phaseP = .guarded ∧
    0 < bound (40 : Word).toNat 4 3 (asP (ring 5 31 31)).free.toNat ∧
    (asP (ring 5 31 31)).hostRefusal .producer
      [rangeAt 0 (4 * bound (40 : Word).toNat 4 3 (asP (ring 5 31 31)).free.toNat)] [] = none ∧
    0 < bound (14 : Word).toNat 2 4 (asP (ring 5 31 31)).free.toNat ∧
    (asP (ring 5 31 31)).hostRefusal .producer
      [rangeAt 0 (2 * bound (14 : Word).toNat 2 4 (asP (ring 5 31 31)).free.toNat)] [] = none ∧
    (2 : Byte) ≠ 0 ∧ 0 < bound (25 : Word).toNat (4 * 2) (4 * 2) (asP (ring 5 31 31)).free.toNat ∧
    (asP (ring 5 31 31)).hostRefusal .producer
      (planarRanges 0 12 (4 * bound (25 : Word).toNat (4 * 2) (4 * 2) (asP (ring 5 31 31)).free.toNat) 2) [] = none := by
  refine ⟨?_, rfl, rfl, by decide, by decide, by decide, by decide, by decide, by decide, by decide⟩
  unfold State.PositionsInv
  decide

theorem witness_HintIsStored :
    ((asP State.reset).portFree .producer ∧ (asP State.reset).phaseP = .guarded) ∧
    ((asK State.reset).portFree .config ∧ (asK State.reset).phaseK = .excl) :=
  ⟨⟨rfl, rfl⟩, ⟨rfl, rfl⟩⟩

/-- A state of the invariant with work in it: a PUSH of 4 bytes about to publish, a confirmed alignment. -/
def busy : State :=
  next .producer ({ asP (ring 4 14 10) with
    ring := [(0, 3), (1, 4), (14, 1), (15, 2)], s24Mode := .lsbAligned, s24Confirmed := true }.goTo (.push 0x1000 4)
      (.publish 14 4))

theorem busy_lanes : busy.LanesInv := lanes_of _ (by decide)

theorem busy_s24 : busy.S24Inv := ⟨fun _ => .inl rfl, fun h => (by cases h), by decide⟩

theorem busy_guards : busy.GuardInv := guards_of _ (by decide) (by decide) (by decide) (by decide) (by decide)

theorem busy_transfers : busy.TransferInv := transfers_of _ (by decide) (by decide)

theorem busy_memory : busy.MemoryInv := ⟨by decide, by decide, fun j => by cases j <;> decide⟩

theorem busy_inv : busy.Inv where
  lanes := busy_lanes
  positions := by unfold State.PositionsInv; decide
  memory := busy_memory
  s24 := busy_s24
  guards := busy_guards
  transfers := busy_transfers
  regions := regions_of _ (by decide) (by decide) (by decide) (by decide) (by decide) (by decide)
  fault := ⟨fun h => (by cases h), fun _ => rfl⟩
  format := fun f pending h => by
    have h' : (none : Option Command) = _ := h
    cases h'

theorem witness_busy_step : ∃ t, step busy = .next t := ⟨_, rfl⟩

theorem witness_RingIsQueue : busy.Inv ∧ ∃ t, step busy = .next t ∧ t.avail = 8 ∧ busy.avail = 4 :=
  ⟨busy_inv, _, rfl, by decide, by decide⟩

theorem witness_ConfirmedAlignmentStays : busy.S24Inv ∧ busy.s24Confirmed = true ∧ ∃ t, step busy = .next t :=
  ⟨busy_s24, rfl, _, rfl⟩

theorem witness_S24InvariantKept : busy.LanesInv ∧ busy.S24Inv ∧ ∃ t, step busy = .next t :=
  ⟨busy_lanes, busy_s24, _, rfl⟩

theorem witness_GenterSteps :
    ((asK State.reset).portFree .producer ∧ (asK State.reset).phase .producer = .idle ∧
      (asK State.reset).reconfig = true) ∧
    (State.reset.portFree .consumer ∧ State.reset.phase .consumer = .idle ∧ State.reset.reconfig = false) ∧
    (State.reset.goTo (.genter .producer) .g2).atStage (.genter .producer) .g2 ∧
    (State.reset.goTo (.genter .producer) .g3).atStage (.genter .producer) .g3 ∧
    (State.reset.goTo (.genter .consumer) (.g4 true)).atStage (.genter .consumer) (.g4 true) ∧
    (State.reset.goTo (.genter .consumer) (.g4 false)).atStage (.genter .consumer) (.g4 false) :=
  ⟨⟨rfl, rfl, rfl⟩, ⟨rfl, rfl, rfl⟩, rfl, rfl, rfl, rfl⟩

theorem witness_GexitUndoesOwnRegistration :
    ((asP State.reset).portFree .producer ∧ (asP State.reset).phase .producer ≠ .region) ∧
    (State.reset.portFree .consumer ∧ State.reset.phase .consumer ≠ .region) := ⟨⟨rfl, by decide⟩, rfl, by decide⟩

theorem witness_ReconfigureGuardSteps :
    (State.reset.portFree .config ∧ State.reset.phaseK = .idle ∧ State.reset.reconfig = false) ∧
    ((State.reset.goTo .renter .r2).atStage .renter .r2 ∧ (State.reset.goTo .renter .r2).activeUsers = 0) ∧
    (((asP State.reset).goTo .renter .r2).atStage .renter .r2 ∧ ((asP State.reset).goTo .renter .r2).activeUsers ≠ 0) ∧
    ((asK State.reset).portFree .config ∧ (asK State.reset).phaseK = .excl) :=
  ⟨⟨rfl, rfl, rfl⟩, ⟨rfl, rfl⟩, ⟨rfl, by decide⟩, rfl, rfl⟩

theorem witness_GuardInvariantKept : busy.LanesInv ∧ busy.GuardInv ∧ ∃ t, step busy = .next t :=
  ⟨busy_lanes, busy_guards, _, rfl⟩

/-- K about to be granted exclusive ownership. -/
def granting : State := next .config ({ State.reset with reconfig := true, phaseK := .waiting }.goTo .renter .r2)

theorem granting_guards : granting.GuardInv := guards_of _ (by decide) (by decide) (by decide) (by decide) (by decide)

theorem witness_MutualExclusion :
    granting.LanesInv ∧ granting.GuardInv ∧ ∃ t, step granting = .next t ∧ t.phaseK = .excl :=
  ⟨lanes_of _ (by decide), granting_guards, _, rfl, rfl⟩

/-- T-GUARD-6 before g4: the producer's re-check found the flag clear, then K set it. -/
def late (p : Port) : State :=
  next p ({ State.reset with reconfig := true, activeUsers := 1 }.goTo (.genter .producer) (.g4 false))

theorem witness_NoLateRegistration :
    ((late .producer).LanesInv ∧ ∃ t, step (late .producer) = .next t ∧ (late .producer).reg .producer = false ∧
      t.reg .producer = true) ∧
    ((late .consumer).LanesInv ∧ ∃ t, step (late .consumer) = .next t ∧ (late .consumer).reconfig = true ∧
      t.genterStage .producer = some (.g4 false)) :=
  ⟨⟨lanes_of _ (by decide), _, rfl, rfl, rfl⟩, lanes_of _ (by decide), _, rfl, rfl, rfl⟩

theorem witness_SetfmtSteps :
    ((asK State.reset).portFree .config ∧ (asK State.reset).phaseK = .excl) ∧
    (((asK State.reset).goTo (.setfmt resetFormat) (.fmtStore [.rate])).atStage (.setfmt resetFormat)
      (.fmtStore [.rate]) ∧ [FmtField.rate] ≠ [] ∧ FmtField.rate ∈ [FmtField.rate]) ∧
    ((asK State.reset).goTo (.setfmt resetFormat) (.fmtStore [])).atStage (.setfmt resetFormat) (.fmtStore []) :=
  ⟨⟨rfl, rfl⟩, ⟨rfl, by decide, by decide⟩, rfl⟩

theorem witness_RdregReadsTable : (ring 31 5 6).portFree .consumer ∧ (ring 31 5 6).sizeLog2.toNat ≤ 31 :=
  ⟨rfl, by decide⟩

/-- SETFMT's last step next. -/
theorem witness_FormatChangesOnlyBySetfmt :
    ∃ t, step (next .config ((asK State.reset).goTo (.setfmt resetFormat) (.fmtStore []))) = .next t ∧ t.fmtGen = 1 :=
  ⟨_, rfl, rfl⟩

/-- The latch set, with a descriptor waiting that does not even decode. -/
def latched : State := waiting .producer ⟨0, 0, 0, 0⟩ { State.reset with fatal := true, fatalCode := 1 }

theorem witness_LatchAnswersEveryCommand :
    latched.schedule = .turn .producer 0 :: [] ∧ latched.lane .producer = ⟨⟨0, 0, 0, 0⟩ :: [], none, none⟩ ∧
    latched.fatal = true := ⟨rfl, rfl, rfl⟩

/-- A copy of a range onto itself waiting. -/
def overlapping : State := waiting .config ⟨0x10000000, 0x1000, 0x1000, 1⟩ State.reset

theorem witness_LatchSetByOverlapClearedByReset :
    (latched.LanesInv ∧ (∃ t, step latched = .next t) ∧ latched.fatal = true) ∧
    (overlapping.LanesInv ∧ overlapping.fatal = false ∧ ∃ t, step overlapping = .next t ∧ t.fatal = true) :=
  ⟨⟨lanes_of _ (by decide), ⟨_, rfl⟩, rfl⟩, lanes_of _ (by decide), rfl, _, rfl, rfl⟩

theorem witness_ResetEvent : ({ busy with schedule := [.reset [0x2000]] } : State).schedule = .reset [0x2000] :: [] :=
  rfl

theorem witness_ProtocolViolationsRefused :
    (State.reset.portFree .producer ∧ State.reset.phaseP = .idle) ∧
    (writing.portFree .producer ∧ writing.phaseP = .region ∧ writing.wregion = some ⟨12, 4⟩ ∧ 4 < (5 : Word).toNat) ∧
    ((opened 3).portFree .producer ∧ (opened 3).phaseP = .region ∧ (opened 3).wregion = some ⟨12, 4⟩ ∧
      (4 : Word).toNat ≤ 4 ∧ 3 < (4 : Word).toNat ∧ (12 : Word).toNat + 3 ∉ (opened 3).winWritten) ∧
    ((asP State.reset).portFree .producer ∧ (asP State.reset).phaseP = .guarded) ∧
    (State.reset.portFree .consumer ∧ State.reset.phaseC = .idle) ∧
    (reading.portFree .consumer ∧ reading.phaseC = .region ∧ reading.rregion = some ⟨10, 6⟩ ∧ 6 < (7 : Word).toNat) ∧
    ((asC State.reset).portFree .consumer ∧ (asC State.reset).phaseC = .guarded) ∧
    (State.reset.portFree .config ∧ State.reset.phaseK ≠ .excl) ∧
    ((asK State.reset).portFree .config ∧ (asK State.reset).phaseK ≠ .idle) :=
  ⟨⟨rfl, rfl⟩, ⟨rfl, rfl, rfl, by decide⟩, ⟨rfl, rfl, rfl, by decide, by decide, by decide⟩, ⟨rfl, rfl⟩, ⟨rfl, rfl⟩,
    ⟨rfl, rfl, rfl, by decide⟩, ⟨rfl, rfl⟩, ⟨rfl, by decide⟩, rfl, by decide⟩

/-- A copy of 2 bytes to an address, at its moving step. -/
def copying (dst : Word) (s : State) : State := s.goTo (.copyf .producer dst 0x1000 2) .copyMove

/-- Bytes 0x2000 to 0x20FF are not backed. -/
def holed : State := { State.reset with cfg := { Config.suggested with hostHoles := [⟨0x2000, 0x100⟩] } }

/-- The command of `copying`, and a POP of 1 byte to 0x3002 in flight beside it. -/
def copyTo (dst : Word) : Command := ⟨.copyf .producer dst 0x1000 2, .copyMove⟩
def racing : State := copying 0x3001 ((asC State.reset).goTo (.pop 0x3002 1) (.move 0 1))

theorem witness_HostAccessRefused :
    ((copying 0xFFFFFFFF State.reset).atStage (copyTo 0xFFFFFFFF).instr .copyMove ∧
      (copyTo 0xFFFFFFFF).legal = true ∧
      ∃ r ∈ (copyTo 0xFFFFFFFF).hostReads ++ (copyTo 0xFFFFFFFF).hostWrites, 2 ^ 32 < r.base + r.len) ∧
    ((copying 0x20FF holed).atStage (copyTo 0x20FF).instr .copyMove ∧ (copyTo 0x20FF).legal = true ∧
      (∀ r ∈ (copyTo 0x20FF).hostReads ++ (copyTo 0x20FF).hostWrites, r.base + r.len ≤ 2 ^ 32) ∧
      ∃ r ∈ (copyTo 0x20FF).hostReads ++ (copyTo 0x20FF).hostWrites, ∃ h ∈ (copying 0x20FF holed).cfg.hostHoles,
        rangesMeet r h = true) ∧
    (racing.atStage (copyTo 0x3001).instr .copyMove ∧ (copyTo 0x3001).legal = true ∧
      (∀ r ∈ (copyTo 0x3001).hostReads ++ (copyTo 0x3001).hostWrites, r.base + r.len ≤ 2 ^ 32) ∧
      (∀ r ∈ (copyTo 0x3001).hostReads ++ (copyTo 0x3001).hostWrites, ∀ h ∈ racing.cfg.hostHoles,
        rangesMeet r h = false) ∧
      ∃ q c, q ≠ (copyTo 0x3001).instr.port ∧ (racing.lane q).inflight = some c ∧ ∃ x y, rangesMeet x y = true ∧
        ((x ∈ (copyTo 0x3001).hostWrites ∧ y ∈ c.hostReads ++ c.hostWrites) ∨
          (x ∈ (copyTo 0x3001).hostReads ∧ y ∈ c.hostWrites))) := by
  refine ⟨⟨rfl, by decide, by decide⟩, ⟨rfl, by decide, by decide, by decide⟩, rfl, by decide, by decide, by decide,
    .consumer, ⟨.pop 0x3002 1, .move 0 1⟩, by decide, rfl, ⟨0x3001, 2⟩, ⟨0x3002, 1⟩, by decide, ?_⟩
  decide

/-- A copy to the byte below the hole, to the top byte of HOST space, and to the byte below the POP's: all admitted. -/
theorem test_host_access_edges :
    refusal (exec (.copyf .producer 0x1FFE 0x1000 2) (copying 0x1FFE holed)) = none ∧
    refusal (exec (.copyf .producer 0xFFFFFFFE 0x1000 2) (copying 0xFFFFFFFE State.reset)) = none ∧
    refusal (exec (.copyf .producer 0x3000 0x1000 2) (copying 0x3000 ((asC State.reset).goTo (.pop 0x3002 1)
      (.move 0 1)))) = none := by decide

/-- A store of the last two bytes of HOST space while a POP writes elsewhere. -/
def storing : State := entry (.hostStore 0xFFFFFFFE [1, 2]) ((asC (ring 4 9 10)).goTo (.pop 0x3002 1) (.move 10 1))

theorem witness_HostStoreWritesItsBytes :
    storing.schedule = .hostStore 0xFFFFFFFE [1, 2] :: [] ∧
    (0xFFFFFFFE : Word).toNat + ([1, 2] : List Byte).length ≤ 2 ^ 32 ∧
    (∀ h ∈ storing.cfg.hostHoles, rangesMeet ⟨(0xFFFFFFFE : Word).toNat, 2⟩ h = false) ∧
    (∀ q c, (storing.lane q).inflight = some c → ∀ y ∈ c.hostReads ++ c.hostWrites,
      rangesMeet ⟨(0xFFFFFFFE : Word).toNat, 2⟩ y = false) := by
  refine ⟨rfl, by decide, by decide, fun q c h y hy => ?_⟩
  have hq : ∀ q ∈ [Port.producer, .consumer, .config], (storing.lane q).inflight.all (fun c =>
    (c.hostReads ++ c.hostWrites).all (fun y => !rangesMeet ⟨(0xFFFFFFFE : Word).toNat, 2⟩ y)) = true := by decide
  have hc := hq q (by cases q <;> decide)
  rw [h] at hc
  simpa using List.all_eq_true.1 hc y hy

/-- The refused stores: one byte past the top, the hole's first byte, the byte a POP in flight writes. -/
theorem witness_HostStoreWritesItsBytes_refused :
    ((entry (.hostStore 0xFFFFFFFF [1, 2]) State.reset).schedule = .hostStore 0xFFFFFFFF [1, 2] :: [] ∧
      2 ^ 32 < (0xFFFFFFFF : Word).toNat + ([1, 2] : List Byte).length) ∧
    ((entry (.hostStore 0x1FFF [1, 2]) holed).schedule = .hostStore 0x1FFF [1, 2] :: [] ∧
      (0x1FFF : Word).toNat + ([1, 2] : List Byte).length ≤ 2 ^ 32 ∧
      ∃ h ∈ (entry (.hostStore 0x1FFF [1, 2]) holed).cfg.hostHoles, rangesMeet ⟨(0x1FFF : Word).toNat, 2⟩ h = true) ∧
    ((entry (.hostStore 0x3001 [1, 2]) storing).schedule = .hostStore 0x3001 [1, 2] :: [] ∧
      (0x3001 : Word).toNat + ([1, 2] : List Byte).length ≤ 2 ^ 32 ∧
      (∀ h ∈ (entry (.hostStore 0x3001 [1, 2]) storing).cfg.hostHoles,
        rangesMeet ⟨(0x3001 : Word).toNat, 2⟩ h = false) ∧
      ∃ q c, ((entry (.hostStore 0x3001 [1, 2]) storing).lane q).inflight = some c ∧
        ∃ y ∈ c.hostReads ++ c.hostWrites, rangesMeet ⟨(0x3001 : Word).toNat, 2⟩ y = true) :=
  ⟨⟨rfl, by decide⟩, ⟨rfl, by decide, by decide⟩, rfl, by decide, by decide, .consumer, ⟨.pop 0x3002 1, .move 10 1⟩,
    rfl, by decide⟩

/-- A POP about to free its byte, and K about to clear the ring under exclusive ownership. -/
def freeing : State := next .consumer ((asC (ring 4 9 10)).goTo (.pop 0x3002 1) (.publish 10 1))
def clearing : State := waiting .config ⟨0x29000000, 0, 0, 0⟩ (asK (ring 4 5 5))

theorem witness_AgentsWriteOnlyTheirOwnState :
    (busy.LanesInv ∧ busy.GuardInv ∧ busy.TransferInv ∧ busy.schedule = .turn .producer 0 :: [] ∧
      ∃ t, step busy = .next t) ∧
    (freeing.LanesInv ∧ freeing.GuardInv ∧ freeing.TransferInv ∧ freeing.schedule = .turn .consumer 0 :: [] ∧
      ∃ t, step freeing = .next t) ∧
    (clearing.LanesInv ∧ clearing.GuardInv ∧ clearing.TransferInv ∧ clearing.schedule = .turn .config 0 :: [] ∧
      clearing.phaseK = .excl ∧ ∃ t, step clearing = .next t) ∧
    (granting.LanesInv ∧ granting.GuardInv ∧ granting.TransferInv ∧ granting.schedule = .turn .config 0 :: [] ∧
      granting.phaseK ≠ .excl ∧ ∃ t, step granting = .next t) ∧
    (writeIn.RegionInv ∧ writeIn.schedule = .winWrite 14 [1, 2] :: [] ∧ ∃ t, step writeIn = .next t) :=
  ⟨⟨busy_lanes, busy_guards, busy_transfers, rfl, _, rfl⟩,
    ⟨lanes_of _ (by decide), guards_of _ (by decide) (by decide) (by decide) (by decide) (by decide),
      transfers_of _ (by decide) (by decide), rfl, _, rfl⟩,
    ⟨lanes_of _ (by decide), guards_of _ (by decide) (by decide) (by decide) (by decide) (by decide),
      transfers_of _ (by decide) (by decide), rfl, rfl, _, rfl⟩,
    ⟨lanes_of _ (by decide), granting_guards, transfers_of _ (by decide) (by decide), rfl, by decide, _, rfl⟩,
    writing_regions, rfl, _, rfl⟩

/-- A producer's turn that writes the ring: a PUSH of 4 bytes at its moving step. -/
def moving : State := next .producer ((asP (ring 4 14 10)).goTo (.push 0x1000 4) (.move 14 4))

theorem witness_AgentsWriteOnlyTheirOwnState_free_area :
    moving.LanesInv ∧ moving.GuardInv ∧ moving.TransferInv ∧ moving.schedule = .turn .producer 0 :: [] ∧
    ∃ t, step moving = .next t :=
  ⟨lanes_of _ (by decide), guards_of _ (by decide) (by decide) (by decide) (by decide) (by decide),
    transfers_of _ (by decide) (by decide), rfl, _, rfl⟩

theorem witness_BoundedExecution :
    (State.reset.portFree (Instr.genter .producer).port ∧ ∃ t, exec (.genter .producer) State.reset = .next t) ∧
    (busy.atStage (.push 0x1000 4) (.publish 14 4) ∧ ∃ t, exec (.push 0x1000 4) busy = .next t) :=
  ⟨⟨rfl, _, rfl⟩, rfl, _, rfl⟩

theorem witness_MemoryFormKept : busy.MemoryInv ∧ ∃ t, step busy = .next t := ⟨busy_memory, _, rfl⟩

theorem witness_InvKept : busy.Inv ∧ ∃ t, step busy = .next t := ⟨busy_inv, _, rfl⟩

theorem witness_InvRulesOutFaults : busy.Inv := busy_inv

end Sys2Proof.Tests
end

section
/-! PROOF. The register table and the reset values (spec/10_state.md R60, R62): the value of each packed status
register as a sum of its fields, `readReg` against the table, and RDREG's response in two words (R265). -/

namespace Sys2Proof.Machine

/-! Words put together from fields, and a 64-bit value taken apart into two words. -/

/-- Concatenation of fields is a sum at their places. -/
theorem toNat_append_eq_add {m n : Nat} (x : BitVec m) (y : BitVec n) :
    (x ++ y).toNat = x.toNat * 2 ^ n + y.toNat := by
  rw [BitVec.toNat_append, ← Nat.shiftLeft_add_eq_or_of_lt y.isLt, Nat.shiftLeft_eq]

theorem bit_toNat (b : Bool) : (bit b).toNat = b.toNat := BitVec.toNat_ofBool b

theorem flagValue_toNat (b : Bool) : (flagValue b).toNat = b.toNat := by
  rw [flagValue, BitVec.toNat_setWidth_of_le (by decide), bit_toNat]

/-- The two words of a response determine the 64-bit value. -/
theorem toNat_halves (v : BitVec 64) :
    (v.extractLsb' 0 32).toNat + 2 ^ 32 * (v.extractLsb' 32 32).toNat = v.toNat := by
  have hv := v.isLt
  simp only [BitVec.extractLsb'_toNat, Nat.shiftRight_eq_div_pow]
  omega

theorem highHalf_eq_zero {v : BitVec 64} (h : v.toNat < 2 ^ 32) : v.extractLsb' 32 32 = 0 := by
  apply BitVec.eq_of_toNat_eq
  have hv := toNat_halves v
  have h0 : (0 : BitVec 32).toNat = 0 := rfl
  omega

/-! The packed status registers (R60). -/

theorem State.s24Status_toNat (s : State) :
    s.s24Status.toNat = s.s24Mode.code.toNat + 4 * s.s24Hint.code.toNat + 16 * s.s24Confirmed.toNat := by
  simp only [State.s24Status, toNat_append_eq_add, bit_toNat, BitVec.ofNat_eq_ofNat, BitVec.toNat_ofNat]
  omega

theorem State.guardStatus_toNat (s : State) :
    s.guardStatus.toNat =
      s.reconfig.toNat + 2 * s.regP.toNat + 4 * s.regC.toNat + 256 * s.activeUsers.toNat := by
  simp only [State.guardStatus, toNat_append_eq_add, bit_toNat, BitVec.ofNat_eq_ofNat, BitVec.toNat_ofNat]
  omega

theorem State.faultStatus_toNat (s : State) :
    s.faultStatus.toNat = s.fatal.toNat + 256 * s.fatalCode.toNat := by
  simp only [State.faultStatus, toNat_append_eq_add, bit_toNat, BitVec.ofNat_eq_ofNat, BitVec.toNat_ofNat]
  omega

/-! The register table (R60). -/

/-- The table's S24 row is the sum of the model's field codes. -/
theorem State.registerValue_s24Status (s : State) : s.registerValue .s24Status = s.s24Status.toNat := by
  rw [s.s24Status_toNat]
  unfold State.registerValue
  cases s.s24Mode <;> cases s.s24Hint <;> rfl

/-- What RDREG reads is the table's value. R21's bound on the size is what lets SIZE and MASK fit. -/
theorem State.readReg_toNat (s : State) (h : s.sizeLog2.toNat ≤ 31) (reg : RegNum) :
    (s.readReg reg).toNat = s.registerValue reg := by
  cases reg with
  | size =>
    have hs := s.size_le 31 h
    exact Nat.mod_eq_of_lt (by omega)
  | mask => exact (BitVec.toNat_setWidth_of_le (by decide)).trans (s.mask_toNat (by omega))
  | s24Status => exact (BitVec.toNat_setWidth_of_le (by decide)).trans s.registerValue_s24Status.symm
  | guardStatus => exact (BitVec.toNat_setWidth_of_le (by decide)).trans s.guardStatus_toNat
  | faultStatus => exact (BitVec.toNat_setWidth_of_le (by decide)).trans s.faultStatus_toNat
  | fmtDsd | fmtPack24 | fmtUp16to32 | fmtDsdBitrev | fmtDsdBswap | fmtLowbitrate => exact flagValue_toNat _
  | wp | rp | silence | s24SilentCount | fmtRate | fmtChannels | fmtBytesIn | fmtBytesOut =>
    exact BitVec.toNat_setWidth_of_le (by decide)
  | fmtGen => exact BitVec.toNat_ofNat _ _

/-- Every register but FMT_GEN fits one word. -/
theorem State.registerValue_lt (s : State) (h : s.sizeLog2.toNat ≤ 31) {reg : RegNum} (hreg : reg ≠ .fmtGen) :
    s.registerValue reg < 2 ^ 32 := by
  have hs : 2 ^ s.sizeLog2.toNat ≤ 2 ^ 31 := s.size_le 31 h
  cases reg with
  | fmtGen => exact absurd rfl hreg
  | size | mask => simp only [State.registerValue]; omega
  | s24Status => rw [s.registerValue_s24Status]; exact s.s24Status.isLt
  | guardStatus => rw [State.registerValue, ← s.guardStatus_toNat]; exact s.guardStatus.isLt
  | faultStatus => rw [State.registerValue, ← s.faultStatus_toNat]; exact s.faultStatus.isLt
  | fmtDsd | fmtPack24 | fmtUp16to32 | fmtDsdBitrev | fmtDsdBswap | fmtLowbitrate =>
    exact (Bool.toNat_lt _).trans (by decide)
  | wp | rp | s24SilentCount | fmtRate => exact BitVec.isLt _
  | silence | fmtChannels | fmtBytesIn | fmtBytesOut => exact (BitVec.isLt _).trans (by decide)

/-- RDREG on a free port answers at once, whatever the phases (R265). -/
theorem exec_rdreg_of_portFree {p : Port} {s : State} (h : s.portFree p) (reg : RegNum) :
    exec (.rdreg p reg) s =
      .next (s.finish p (done ((s.readReg reg).extractLsb' 0 32) ((s.readReg reg).extractLsb' 32 32))) := by
  have hp : s.progress (.rdreg p reg) = .fresh := (State.progress_fresh_iff s _).2 h
  simp only [exec, execRdreg, hp]

/-- Settles O46: the response is the two halves of `readReg`, and `readReg` is the table's value. -/
theorem rdregReadsTable : Obligations.RdregReadsTable := by
  intro p reg s hfree hsize
  have hval := s.readReg_toNat hsize reg
  refine ⟨_, _, exec_rdreg_of_portFree hfree reg, (toNat_halves _).trans hval, fun hreg => ?_⟩
  exact highHalf_eq_zero (hval ▸ s.registerValue_lt hsize hreg)

/-! Reset (R62). -/

/-- A ring of size 1 holds nothing and offers nothing: its mask is 0 (R25, R62). -/
theorem State.avail_free_of_sizeLog2_zero (s : State) (h : s.sizeLog2 = 0) : s.avail = 0 ∧ s.free = 0 := by
  have hmask : s.mask = 0 := by simp [State.mask, State.size, h]
  simp [State.avail, State.free, availAt, freeAt, hmask]

/-- Settles O50: each field of `State.reset` is R62's value by definition, and at size 1 there is nothing available
and nothing free. -/
theorem resetValues : Obligations.ResetValues := by
  unfold Obligations.ResetValues
  obtain ⟨havail, hfree⟩ := State.reset.avail_free_of_sizeLog2_zero rfl
  rw [havail, hfree]
  and_intros <;> rfl

end Sys2Proof.Machine
end

section
/-! PROOF. What decoding rejects (spec/30_encoding.md R120 to R124): the cause of each rejection, the opcodes and the
port lists of R114, the four reserved operand values, and the turn that answers an illegal descriptor. -/

namespace Sys2Proof

/-! Opcodes and mnemonics (R114, R121). -/

theorem mem_allMnemonics (m : Mnemonic) : m ∈ allMnemonics := by cases m <;> decide

/-- No two rows of R114 share an opcode. -/
theorem Mnemonic.opcode_injective : Function.Injective Mnemonic.opcode := by
  have hnodup : (allMnemonics.map Mnemonic.opcode).Nodup := by decide
  exact fun m n h => List.inj_on_of_nodup_map hnodup (mem_allMnemonics m) (mem_allMnemonics n) h

theorem mnemonicOf_eq_none_iff (b : Byte) : mnemonicOf b = none ↔ ∀ m : Mnemonic, m.opcode ≠ b := by
  simp [mnemonicOf, mem_allMnemonics]

theorem mnemonicOf_opcode (m : Mnemonic) : mnemonicOf m.opcode = some m := by
  cases h : mnemonicOf m.opcode with
  | none => exact absurd rfl ((mnemonicOf_eq_none_iff _).1 h m)
  | some n =>
    have hn : n.opcode = m.opcode := by simpa using List.find?_some h
    rw [Mnemonic.opcode_injective hn]

theorem mnemonicOf_eq_some_iff (b : Byte) (m : Mnemonic) : mnemonicOf b = some m ↔ m.opcode = b := by
  constructor
  · intro h
    simpa using List.find?_some h
  · rintro rfl
    exact mnemonicOf_opcode m

/-- The opcodes of R114 are the ranges that R121's reserved ranges leave. -/
theorem exists_opcode_iff (b : Byte) : (∃ m : Mnemonic, m.opcode = b) ↔
    (0x10 ≤ b.toNat ∧ b.toNat ≤ 0x11) ∨ (0x20 ≤ b.toNat ∧ b.toNat ≤ 0x29) ∨ (0x30 ≤ b.toNat ∧ b.toNat ≤ 0x33) ∨
      (0x40 ≤ b.toNat ∧ b.toNat ≤ 0x45) := by
  constructor
  · rintro ⟨m, rfl⟩
    cases m <;> decide
  · intro h
    have hmem : b.toNat ∈ allMnemonics.map (fun m => m.opcode.toNat) := by
      simp only [allMnemonics, Mnemonic.opcode, List.map_cons, List.map_nil, List.mem_cons, List.not_mem_nil,
        BitVec.reduceToNat]
      omega
    obtain ⟨m, -, hm⟩ := List.mem_map.1 hmem
    exact ⟨m, BitVec.eq_of_toNat_eq hm⟩

/-! What each rejection says of the descriptor. -/

/-- What holds of a descriptor on a port when decoding rejects it for the given reason (R116, R121 to R124). -/
def Illegal.Cause (cfg : Config) (p : Port) (d : Descriptor) : Illegal → Prop
  | .reservedOpcode => ∀ m : Mnemonic, m.opcode ≠ d.opc
  | .wrongPort => ∃ m : Mnemonic, m.opcode = d.opc ∧ p ∉ m.ports
  | .unusedNotZero => ∃ m : Mnemonic, m.opcode = d.opc ∧ p ∈ m.ports ∧ d.unusedZero m.layout = false
  | .reservedOperand => ∃ m : Mnemonic, m.opcode = d.opc ∧ p ∈ m.ports ∧ d.unusedZero m.layout = true ∧
      m.assemble cfg p d = none

/-- The branches of `decode` for a descriptor of the row `m`. -/
theorem decode_of_opcode {m : Mnemonic} {d : Descriptor} (hm : m.opcode = d.opc) (cfg : Config) (p : Port)
    (e : Illegal) : decode cfg p d = .error e ↔
      (p ∉ m.ports ∧ .wrongPort = e) ∨
      (p ∈ m.ports ∧ d.unusedZero m.layout = false ∧ .unusedNotZero = e) ∨
      (p ∈ m.ports ∧ d.unusedZero m.layout = true ∧ m.assemble cfg p d = none ∧ .reservedOperand = e) := by
  simp only [decode, (mnemonicOf_eq_some_iff _ _).2 hm]
  by_cases hp : p ∈ m.ports
  · cases hu : d.unusedZero m.layout with
    | false => simp [hp]
    | true => cases ha : m.assemble cfg p d <;> simp [hp]
  · simp [hp]

/-- Decoding rejects a descriptor for a reason exactly when that reason's cause holds. -/
theorem decode_eq_error_iff (cfg : Config) (p : Port) (d : Descriptor) (e : Illegal) :
    decode cfg p d = .error e ↔ e.Cause cfg p d := by
  by_cases hd : ∃ m : Mnemonic, m.opcode = d.opc
  · obtain ⟨m, hm⟩ := hd
    have hrow : ∀ n : Mnemonic, n.opcode = d.opc ↔ n = m := fun n => by
      rw [← hm]
      exact Mnemonic.opcode_injective.eq_iff
    rw [decode_of_opcode hm]
    cases e <;> simp [Illegal.Cause, hrow]
  · have hnone : mnemonicOf d.opc = none := (mnemonicOf_eq_none_iff _).2 (not_exists.1 hd)
    have hne := not_exists.1 hd
    cases e <;> simp [decode, hnone, Illegal.Cause, hne]

/-- Settles O3: no row has the opcode, which is to say that it lies outside the ranges the rows fill. -/
theorem reservedOpcodesAreIllegal : Obligations.ReservedOpcodesAreIllegal := by
  intro cfg p d
  have hlt : d.opc.toNat < 256 := d.opc.isLt
  have hranges := exists_opcode_iff d.opc
  rw [decode_eq_error_iff, Illegal.Cause, ← not_exists, hranges]
  omega

/-! Port lists (R123). -/

/-- The rows that do not accept a port, by the ports they do accept (R114). -/
theorem Mnemonic.not_mem_ports_iff (m : Mnemonic) (p : Port) : p ∉ m.ports ↔
    (m ∈ [.push, .wrgn, .wcommit, .push24, .push16, .pushdsd] ∧ p ≠ .producer) ∨
    (m ∈ [.pop, .rrgn, .radv] ∧ p ≠ .consumer) ∨
    (m ∈ [.resize, .clear, .renter, .rexit, .setfmt] ∧ p ≠ .config) ∨
    (m ∈ [.s24hint] ∧ p = .consumer) ∨
    (m ∈ [.genter, .gexit] ∧ p = .config) := by
  cases m <;> cases p <;> decide

/-- A condition on the rows of a list is one on the list of their opcodes. -/
theorem mem_map_opcode_iff (b : Byte) (rows : List Mnemonic) (q : Prop) :
    (∃ m : Mnemonic, m.opcode = b ∧ m ∈ rows ∧ q) ↔ b ∈ rows.map Mnemonic.opcode ∧ q := by
  rw [List.mem_map]
  constructor
  · rintro ⟨m, hb, hm, hq⟩
    exact ⟨⟨m, hm, hb⟩, hq⟩
  · rintro ⟨⟨m, hm, hb⟩, hq⟩
    exact ⟨m, hb, hm, hq⟩

/-- Settles O4: the cause of the rejection, its rows taken by their port list and named by their opcodes. -/
theorem wrongPortIsIllegal : Obligations.WrongPortIsIllegal := by
  intro cfg p d
  rw [decode_eq_error_iff, Illegal.Cause, ← List.mem_singleton (a := d.opc)]
  simp only [Mnemonic.not_mem_ports_iff, and_or_left, exists_or, mem_map_opcode_iff]
  exact Iff.rfl

/-! Reserved operand values (R124). -/

theorem unusedZero_packW0 {op md ia : Byte} {w1 w2 w3 : Word} {l : Layout} (hmod : md &&& ~~~l.mod = 0)
    (himma : ia &&& ~~~l.imma = 0) (ha : w1 &&& ~~~l.a = 0) (hb : w2 &&& ~~~l.b = 0) (hc : w3 &&& ~~~l.c = 0) :
    (Descriptor.mk (packW0 op md 0 ia) w1 w2 w3).unusedZero l = true := by
  simp [Descriptor.unusedZero, Laws.immb_packW0, Laws.mod_packW0, Laws.imma_packW0, *]

/-- A descriptor of the row `m` with no bit outside the row's fields, of which `assemble` makes nothing. -/
theorem decode_packW0_reservedOperand {m : Mnemonic} {cfg : Config} {p : Port} {md ia : Byte} {w1 w2 w3 : Word}
    (hp : p ∈ m.ports) (hu : (Descriptor.mk (packW0 m.opcode md 0 ia) w1 w2 w3).unusedZero m.layout = true)
    (hassemble : m.assemble cfg p ⟨packW0 m.opcode md 0 ia, w1, w2, w3⟩ = none) :
    decode cfg p ⟨packW0 m.opcode md 0 ia, w1, w2, w3⟩ = .error .reservedOperand :=
  (decode_eq_error_iff ..).2 ⟨m, (Laws.opc_packW0 ..).symm, hp, hu, hassemble⟩

/-- A byte below 4 has no bit above bit 1. -/
theorem byte_and_not_three {b : Byte} (h : b.toNat < 4) : b &&& ~~~(0x03 : Byte) = 0 := by
  have hb : b ∈ ([0, 1, 2, 3] : List Byte) := by
    simp [← BitVec.toNat_inj]
    omega
  have hall : ∀ x ∈ ([0, 1, 2, 3] : List Byte), x &&& ~~~(0x03 : Byte) = 0 := by decide
  exact hall b hb

/-- The reserved register numbers (R60, R124). -/
theorem regNumOf_eq_none {b : Byte} (h : (0x09 ≤ b.toNat ∧ b.toNat ≤ 0x0F) ∨ 0x1B ≤ b.toNat) :
    regNumOf b = none := by
  have hcode : ∀ r : RegNum, r.code.toNat ≤ 0x08 ∨ (0x10 ≤ r.code.toNat ∧ r.code.toNat ≤ 0x1A) := fun r => by
    cases r <;> decide
  refine List.find?_eq_none.2 fun r _ hr => ?_
  have hrb : r.code = b := by simpa using hr
  have hr' := hcode r
  rw [hrb] at hr'
  omega

/-- S24HINT with hint 3, Deferred, which no caller can give (R227). -/
theorem decode_s24hint_three (cfg : Config) {p : Port} (hp : p ≠ .consumer) :
    decode cfg p ⟨0x33000003, 0, 0, 0⟩ = .error .reservedOperand := by
  have hports : p ∈ Mnemonic.s24hint.ports := by
    cases p with
    | producer | config => decide
    | consumer => exact absurd rfl hp
  exact decode_packW0_reservedOperand (m := .s24hint) (md := 0) (ia := 3) hports (by decide) rfl

/-- RDREG of a reserved register number. -/
theorem decode_rdreg_reserved (cfg : Config) (p : Port) {idx : Byte}
    (h : (0x09 ≤ idx.toNat ∧ idx.toNat ≤ 0x0F) ∨ 0x1B ≤ idx.toNat) :
    decode cfg p ⟨packW0 0x45 0 0 idx, 0, 0, 0⟩ = .error .reservedOperand := by
  refine decode_packW0_reservedOperand (m := .rdreg) ?ports ?unused ?operand
  case ports => cases p <;> decide
  case unused => exact unusedZero_packW0 rfl (BitVec.and_zero ..) rfl rfl rfl
  case operand => simp [Mnemonic.assemble, Laws.imma_packW0, regNumOf_eq_none h]

/-- RESIZE above the largest capacity. -/
theorem decode_resize_too_large {cfg : Config} {capacity : Word} (silenceByte : Byte)
    (h : 2 ^ cfg.log2SizeMax < capacity.toNat) :
    decode cfg .config ⟨packW0 0x28 0 0 silenceByte, capacity, 0, 0⟩ = .error .reservedOperand := by
  refine decode_packW0_reservedOperand (m := .resize) (by decide) ?unused ?operand
  case unused => exact unusedZero_packW0 rfl (BitVec.and_zero ..) (BitVec.and_zero ..) rfl rfl
  case operand => exact if_neg (not_le.2 h)

/-- PUSHDSD with no channel. -/
theorem decode_pushdsd_no_channels (cfg : Config) (src len : Word) {mod : Byte} (h : mod.toNat < 4) :
    decode cfg .producer ⟨packW0 0x32 mod 0 0, src, len, 0⟩ = .error .reservedOperand := by
  refine decode_packW0_reservedOperand (m := .pushdsd) (by decide) ?unused ?operand
  case unused =>
    exact unusedZero_packW0 (byte_and_not_three h) rfl (BitVec.and_zero ..) (BitVec.and_zero ..) rfl
  case operand => exact if_pos (Laws.imma_packW0 ..)

/-- Settles O5, one reserved operand at a time. -/
theorem reservedOperandsAreIllegal : Obligations.ReservedOperandsAreIllegal :=
  ⟨fun cfg _ hp => decode_s24hint_three cfg hp, fun cfg p _ h => decode_rdreg_reserved cfg p h,
    fun _ _ silenceByte h => decode_resize_too_large silenceByte h,
    fun cfg src len _ h => decode_pushdsd_no_channels cfg src len h⟩

end Sys2Proof

namespace Sys2Proof.Machine

/-! The turn that takes an illegal descriptor (R120, R285). -/

/-- A scheduled turn is the port's turn in the state with the entry taken and the choice given. -/
theorem step_of_turn {s : State} {p : Port} {c : Nat} {es : List Event} (h : s.schedule = .turn p c :: es) :
    step s = turn p { s with schedule := es, choice := c } := by
  simp only [step, nextEvent, h, handle]

/-- Answering a command just taken leaves the rest of its stream and the response in its lane. -/
theorem State.setLane_finish (s : State) (p : Port) (ds : List Descriptor) (r : Response) :
    (s.setLane p ⟨ds, none, none⟩).finish p r = s.setLane p ⟨ds, none, some r⟩ := by cases p <;> rfl

/-- On a port with nothing in flight and the latch unset, an illegal descriptor is taken and answered. -/
theorem turn_of_illegal {s : State} {p : Port} {d : Descriptor} {ds : List Descriptor} {r : Option Response}
    {e : Illegal} (hlane : s.lane p = ⟨d :: ds, none, r⟩) (hfatal : s.fatal = false)
    (hdecode : decode s.cfg p d = .error e) :
    turn p s = .next (s.setLane p ⟨ds, none, some illegalResponse⟩) := by
  simp only [turn, hlane, takeCommand, State.setLane_fatal, hfatal, Bool.false_eq_true, ↓reduceIte,
    State.setLane_cfg, hdecode, State.setLane_finish]

/-- Settles O6: the scheduled turn is one that takes an illegal descriptor. -/
theorem illegalDescriptorChangesNothing : Obligations.IllegalDescriptorChangesNothing := by
  intro s p c es d ds r e hschedule hlane hfatal hdecode
  have hlane' : State.lane { s with schedule := es, choice := c } p = ⟨d :: ds, none, r⟩ := by
    rw [← hlane]
    cases p <;> rfl
  rw [step_of_turn hschedule]
  exact turn_of_illegal hlane' hfatal hdecode

end Sys2Proof.Machine
end

section
/-! PROOF. The access counts and the latency of the fixed-timing copy (spec/40_copy.md R146): what the bucket of a tail
decides, and the length of the schedule. -/

namespace Sys2Proof.Machine

/-! The bucket of a tail (R141). -/

/-- c(bucket) of R146 by the size of the tail: the two-move buckets are the tails from 4 to 63 bytes. -/
theorem tailAccesses_bucketOf (r : Nat) :
    tailAccesses (bucketOf r) = if 64 ≤ r then 4 else if 4 ≤ r then 2 else if 1 ≤ r then 3 else 0 := by
  unfold bucketOf
  split_ifs <;> simp only [tailAccesses] <;> omega

/-- The place in `T_TAIL` by the size of the tail. -/
theorem index_bucketOf (r : Nat) :
    (bucketOf r).index = if 64 ≤ r then 0 else if 32 ≤ r then 1 else if 16 ≤ r then 2 else if 8 ≤ r then 3
      else if 4 ≤ r then 4 else if 1 ≤ r then 5 else 6 := by
  unfold bucketOf
  split_ifs <;> rfl

/-! The length of the schedule (R141). -/

theorem length_blockMoves (i : Nat) : (blockMoves i).length = 4 := rfl

theorem length_tailMoves (t n : Nat) : (tailMoves t n).length = tailAccesses (bucketOf (n - t)) := by
  unfold tailMoves
  cases bucketOf (n - t) <;> rfl

/-- Four moves a block, and the moves of the tail, which is what the last whole block leaves. -/
theorem length_copySchedule (n : Nat) : (copySchedule n).length = copyAccesses n := by
  have hblocks : ((List.range (n / copyBlock)).flatMap blockMoves).length = 4 * (n / copyBlock) := by
    simp [List.length_flatMap, length_blockMoves, Nat.mul_comm]
  have htail : n - copyBlock * (n / copyBlock) = n % copyBlock := (Nat.mod_eq_sub ..).symm
  rw [copySchedule, List.length_append, hblocks, length_tailMoves, htail, copyAccesses]

/-- Settles O14: the length of the schedule, with the bucket's count and its place in `T_TAIL` read off the tail. -/
theorem accessCountIsPerBucket : Obligations.AccessCountIsPerBucket := by
  intro cfg n
  refine ⟨?count, (length_copySchedule n).symm, ?latency⟩
  case count => rw [length_copySchedule, copyAccesses, tailAccesses_bucketOf, copyBlock]
  case latency => rw [copyLatency, index_bucketOf, copyBlock]

end Sys2Proof.Machine
end

section
/-! PROOF. The converters (spec/41_converters.md R162 to R169): each is a unit-by-unit map whose pieces have one width,
so a byte of its output is a byte of one unit's piece; and what the bit reversal does to each bit. -/

namespace Sys2Proof.Machine

/-! Pieces of one width laid end to end. -/

theorem length_flatMap_of_length_eq {α : Type} {f : α → List Byte} {w : Nat} {xs : List α}
    (hw : ∀ x ∈ xs, (f x).length = w) : (xs.flatMap f).length = w * xs.length := by
  rw [List.length_flatMap, List.map_congr_left hw, List.map_const', List.sum_replicate, smul_eq_mul, Nat.mul_comm]

/-- Byte `k` of piece `i` stands at `w * i + k`. -/
theorem getElem?_flatMap_of_length_eq {α : Type} {f : α → List Byte} {w : Nat} {xs : List α}
    (hw : ∀ x ∈ xs, (f x).length = w) {i k : Nat} (hi : i < xs.length) (hk : k < w) :
    (xs.flatMap f)[w * i + k]? = (f xs[i])[k]? := by
  induction xs generalizing i with
  | nil => exact absurd hi (Nat.not_lt_zero i)
  | cons x xs ih =>
    have hx : (f x).length = w := hw x List.mem_cons_self
    rw [List.flatMap_cons]
    cases i with
    | zero =>
      rw [Nat.mul_zero, Nat.zero_add, List.getElem?_append_left (by omega), List.getElem_cons_zero]
    | succ i =>
      have hnext : w * (i + 1) + k - (f x).length = w * i + k := by rw [hx, Nat.mul_succ]; omega
      rw [List.getElem?_append_right (by rw [hx, Nat.mul_succ]; omega), hnext, List.getElem_cons_succ]
      exact ih (fun y hy => hw y (List.mem_cons_of_mem x hy)) (Nat.lt_of_succ_lt_succ hi)

/-! Converters of one input, unit by unit (R161). -/

/-- `conv` takes its input in units of `u` bytes and answers for each unit the `w` bytes that `unit` makes of the input
from there on. -/
structure UnitByUnit (conv : Nat → List Byte → List Byte) (u w : Nat) (unit : List Byte → List Byte) : Prop where
  zero : ∀ bytes, conv 0 bytes = []
  succ : ∀ n bytes, u ≤ bytes.length → conv (n + 1) bytes = unit bytes ++ conv n (bytes.drop u)
  length_unit : ∀ bytes, u ≤ bytes.length → (unit bytes).length = w

section
variable {conv : Nat → List Byte → List Byte} {u w n : Nat} {unit : List Byte → List Byte} {bytes : List Byte}

theorem UnitByUnit.eq_flatMap (hconv : UnitByUnit conv u w unit) (hlen : u * n ≤ bytes.length) :
    conv n bytes = (List.range n).flatMap fun i => unit (bytes.drop (u * i)) := by
  induction n generalizing bytes with
  | zero => exact hconv.zero bytes
  | succ n ih =>
    rw [Nat.mul_succ] at hlen
    have hrest : u * n ≤ (bytes.drop u).length := by rw [List.length_drop]; omega
    rw [hconv.succ n bytes (by omega), ih hrest, List.range_succ_eq_map]
    simp [List.flatMap_map, Nat.mul_succ, Nat.add_comm]

/-- Every unit of an input that holds `n` of them has all its bytes. -/
theorem UnitByUnit.length_piece (hconv : UnitByUnit conv u w unit) (hlen : u * n ≤ bytes.length) :
    ∀ i ∈ List.range n, (unit (bytes.drop (u * i))).length = w := by
  intro i hi
  have hunit : u * (i + 1) ≤ u * n := Nat.mul_le_mul_left u (List.mem_range.1 hi)
  rw [Nat.mul_succ] at hunit
  exact hconv.length_unit _ (by rw [List.length_drop]; omega)

theorem UnitByUnit.length_eq (hconv : UnitByUnit conv u w unit) (hlen : u * n ≤ bytes.length) :
    (conv n bytes).length = w * n := by
  rw [hconv.eq_flatMap hlen, length_flatMap_of_length_eq (hconv.length_piece hlen), List.length_range]

theorem UnitByUnit.getElem?_eq (hconv : UnitByUnit conv u w unit) (hlen : u * n ≤ bytes.length) {i k : Nat}
    (hi : i < n) (hk : k < w) : (conv n bytes)[w * i + k]? = (unit (bytes.drop (u * i)))[k]? := by
  have hrange : i < (List.range n).length := by rwa [List.length_range]
  rw [hconv.eq_flatMap hlen, getElem?_flatMap_of_length_eq (hconv.length_piece hlen) hrange hk, List.getElem_range]

end

/-! The 24-bit packs and the 16-to-32 upsample (R162 to R164). -/

theorem pack24Lsb_unitByUnit : UnitByUnit pack24Lsb 4 3 (fun bytes => bytes.take 3) where
  zero _ := rfl
  succ
    | _, _ :: _ :: _ :: _ :: _, _ => rfl
  length_unit _ h := List.length_take_of_le (by omega)

theorem pack24Msb_unitByUnit : UnitByUnit pack24Msb 4 3 (fun bytes => (bytes.drop 1).take 3) where
  zero _ := rfl
  succ
    | _, _ :: _ :: _ :: _ :: _, _ => rfl
  length_unit _ h := List.length_take_of_le (by rw [List.length_drop]; omega)

theorem up16to32_unitByUnit : UnitByUnit up16to32 2 4 (fun bytes => 0 :: 0 :: bytes.take 2) where
  zero _ := rfl
  succ
    | _, _ :: _ :: _, _ => rfl
  length_unit _ h := by simp [h]

/-- Settles O15: both packs are unit by unit, each with its three bytes of the sample. -/
theorem pack24Layout : Obligations.Pack24Layout := by
  intro n bytes hlen
  refine ⟨pack24Lsb_unitByUnit.length_eq hlen, pack24Msb_unitByUnit.length_eq hlen, ?lsb, ?msb⟩
  case lsb =>
    intro i hi k hk
    rw [pack24Lsb_unitByUnit.getElem?_eq hlen hi hk, List.getElem?_take_of_lt hk, List.getElem?_drop]
  case msb =>
    intro i hi k hk
    rw [pack24Msb_unitByUnit.getElem?_eq hlen hi hk, List.getElem?_take_of_lt hk, List.drop_drop,
      List.getElem?_drop]

/-- Settles O16: the upsample is unit by unit, and the four bytes of a piece are read one by one. -/
theorem up16Layout : Obligations.Up16Layout := by
  intro n bytes hlen
  refine ⟨up16to32_unitByUnit.length_eq hlen, fun i hi => ?_⟩
  have hbyte : ∀ k < 4, (up16to32 n bytes)[4 * i + k]? = (0 :: 0 :: (bytes.drop (2 * i)).take 2)[k]? :=
    fun k hk => up16to32_unitByUnit.getElem?_eq hlen hi hk
  refine ⟨hbyte 0 (by omega), hbyte 1 (by omega), ?low, ?high⟩
  case low => simpa using hbyte 2 (by omega)
  case high => simpa using hbyte 3 (by omega)

/-! The interleaving (R166). -/

theorem interleave_eq_flatMap (g : Nat) (blocks : List (List Byte)) :
    interleave g blocks = (List.range g).flatMap fun j => blocks.flatMap fun b => (b.drop (4 * j)).take 4 := by
  induction g generalizing blocks with
  | zero => rfl
  | succ g ih =>
    rw [interleave, ih, List.range_succ_eq_map]
    simp [List.flatMap_map, Nat.mul_succ, Nat.add_comm]

/-- A map of the bytes commutes with the interleaving. -/
theorem interleave_map_map (f : Byte → Byte) (g : Nat) (blocks : List (List Byte)) :
    interleave g (blocks.map (fun b => b.map f)) = (interleave g blocks).map f := by
  simp [interleave_eq_flatMap, List.flatMap_map, List.map_flatMap, List.map_take, List.map_drop]

section
variable {g : Nat} {blocks : List (List Byte)}

theorem length_chunk (hlen : ∀ b ∈ blocks, 4 * g ≤ b.length) {j : Nat} (hj : j < g) :
    ∀ b ∈ blocks, ((b.drop (4 * j)).take 4).length = 4 := by
  intro b hb
  have hblock := hlen b hb
  exact List.length_take_of_le (by rw [List.length_drop]; omega)

theorem length_round (hlen : ∀ b ∈ blocks, 4 * g ≤ b.length) :
    ∀ j ∈ List.range g, (blocks.flatMap fun b => (b.drop (4 * j)).take 4).length = 4 * blocks.length :=
  fun _ hj => length_flatMap_of_length_eq (length_chunk hlen (List.mem_range.1 hj))

theorem length_interleave (hlen : ∀ b ∈ blocks, 4 * g ≤ b.length) :
    (interleave g blocks).length = 4 * blocks.length * g := by
  rw [interleave_eq_flatMap, length_flatMap_of_length_eq (length_round hlen), List.length_range]

/-- Byte `k` of channel `c`'s chunk of round `j` is a byte of block `c`. -/
theorem getElem?_interleave (hlen : ∀ b ∈ blocks, 4 * g ≤ b.length) {j c k : Nat} (hj : j < g)
    (hc : c < blocks.length) (hk : k < 4) :
    (interleave g blocks)[(j * blocks.length + c) * 4 + k]? = (blocks[c])[4 * j + k]? := by
  have hpos : (j * blocks.length + c) * 4 + k = 4 * blocks.length * j + (4 * c + k) := by ring
  have hrange : j < (List.range g).length := by rwa [List.length_range]
  rw [hpos, interleave_eq_flatMap, getElem?_flatMap_of_length_eq (length_round hlen) hrange (by omega),
    List.getElem_range, getElem?_flatMap_of_length_eq (length_chunk hlen hj) hc hk, List.getElem?_take_of_lt hk,
    List.getElem?_drop]

end

/-! The byte swap (R169). -/

@[simp] theorem length_swapChunks (l : List Byte) : (swapChunks l).length = l.length := by
  fun_induction swapChunks l with
  | case1 a b c d rest ih => simp [ih]
  | case2 l => rfl

/-- Each whole chunk is reversed where it stands. -/
theorem getElem?_swapChunks {l : List Byte} {i k : Nat} (hi : i * 4 + 4 ≤ l.length) (hk : k < 4) :
    (swapChunks l)[i * 4 + k]? = l[i * 4 + (3 - k)]? := by
  fun_induction swapChunks l generalizing i with
  | case1 a b c d rest ih =>
    cases i with
    | zero => interval_cases k <;> rfl
    | succ i =>
      have hnext : ∀ m, (i + 1) * 4 + m = i * 4 + m + 4 := by omega
      rw [hnext, hnext]
      exact ih (by simp only [List.length_cons] at hi; omega)
  | case2 l hl =>
    match l, hl, hi with
    | a :: b :: c :: d :: rest, hl, _ => exact absurd rfl (hl a b c d rest)

/-! Both options (R167). -/

/-- The bit reversal may be taken after the interleaving. -/
theorem dsdInterleave_eq (blocks : List (List Byte)) (g : Nat) (rev swap : Bool) :
    dsdInterleave blocks g rev swap =
      (if swap then swapChunks else id) ((interleave g blocks).map (if rev then bitrev8 else id)) := by
  cases rev <;> cases swap <;> simp [dsdInterleave, interleave_map_map]

/-- A chunk of a channel in a round ends within the output. -/
theorem chunk_end_le {j c channels g : Nat} (hj : j < g) (hc : c < channels) :
    (j * channels + c) * 4 + 4 ≤ 4 * channels * g := by
  calc (j * channels + c) * 4 + 4 ≤ (j * channels + channels) * 4 := by omega
    _ = 4 * channels * (j + 1) := by ring
    _ ≤ 4 * channels * g := Nat.mul_le_mul_left _ hj

/-- The place within the chunk is the swap's, the byte of that place the interleaving's. -/
theorem getElem?_dsdInterleave {blocks : List (List Byte)} {g : Nat} (rev swap : Bool)
    (hlen : ∀ b ∈ blocks, 4 * g ≤ b.length) {j c k : Nat} (hj : j < g) (hc : c < blocks.length) (hk : k < 4) :
    (dsdInterleave blocks g rev swap)[(j * blocks.length + c) * 4 + k]? =
      (blocks[c])[4 * j + (if swap then 3 - k else k)]?.map (if rev then bitrev8 else id) := by
  rw [dsdInterleave_eq]
  cases swap with
  | false =>
    rw [if_neg Bool.false_ne_true, id, List.getElem?_map, getElem?_interleave hlen hj hc hk,
      if_neg Bool.false_ne_true]
  | true =>
    have hchunk : (j * blocks.length + c) * 4 + 4 ≤
        ((interleave g blocks).map (if rev then bitrev8 else id)).length := by
      rw [List.length_map, length_interleave hlen]
      exact chunk_end_le hj hc
    rw [if_pos rfl, getElem?_swapChunks hchunk hk, List.getElem?_map, getElem?_interleave hlen hj hc (by omega),
      if_pos rfl]

theorem length_dsdInterleave {blocks : List (List Byte)} {g : Nat} (rev swap : Bool)
    (hlen : ∀ b ∈ blocks, 4 * g ≤ b.length) :
    (dsdInterleave blocks g rev swap).length = 4 * blocks.length * g := by
  cases swap <;> simp [dsdInterleave_eq, length_interleave hlen]

/-- Settles O17: every byte read lies within its block, so that no default is answered. -/
theorem dsdLayout : Obligations.DsdLayout := by
  intro blocks g rev swap hlen
  refine ⟨length_dsdInterleave rev swap hlen, fun j hj c hc k hk => ?_⟩
  have hread : 4 * j + (if swap then 3 - k else k) < blocks[c].length := by
    have hblock := hlen _ (List.getElem_mem hc)
    split <;> omega
  rw [List.getD_eq_getElem?_getD, getElem?_dsdInterleave rev swap hlen hj hc hk]
  cases rev <;> simp [hc, hread]

/-! The bit reversal (R55, R168). -/

/-- R55: the table reverses the bits of its index. -/
theorem getLsbD_nibbleRev : ∀ i < 16, ∀ j < 4, (nibbleRev.getD i 0).getLsbD j = i.testBit (3 - j) := by decide

theorem getLsbD_revNibble (x : BitVec 4) {j : Nat} (hj : j < 4) : (revNibble x).getLsbD j = x.getLsbD (3 - j) :=
  getLsbD_nibbleRev x.toNat x.isLt j hj

/-- Bits 0 to 3 come from the upper nibble and bits 4 to 7 from the lower one. -/
theorem getLsbD_bitrev8 (b : Byte) {j : Nat} (hj : j < 8) : (bitrev8 b).getLsbD j = b.getLsbD (7 - j) := by
  rw [bitrev8, BitVec.getLsbD_append]
  split
  case isTrue hlow =>
    rw [getLsbD_revNibble _ hlow, BitVec.getLsbD_extractLsb']
    simp only [show 3 - j < 4 by omega, show 4 + (3 - j) = 7 - j by omega, decide_true, Bool.true_and]
  case isFalse hhigh =>
    rw [getLsbD_revNibble _ (by omega), BitVec.getLsbD_extractLsb']
    simp only [show 3 - (j - 4) < 4 by omega, show 0 + (3 - (j - 4)) = 7 - j by omega, decide_true, Bool.true_and]

@[simp] theorem bitrev8_bitrev8 (b : Byte) : bitrev8 (bitrev8 b) = b := by
  apply BitVec.eq_of_getLsbD_eq
  intro j hj
  rw [getLsbD_bitrev8 _ hj, getLsbD_bitrev8 _ (by omega), show 7 - (7 - j) = j by omega]

theorem toNat_bitrev8 (b : Byte) : (bitrev8 b).toNat =
    16 * (nibbleRev.getD (b.toNat % 16) 0).toNat + (nibbleRev.getD (b.toNat / 16) 0).toNat := by
  have hlow : (b.extractLsb' 0 4).toNat = b.toNat % 16 := BitVec.extractLsb'_toNat ..
  have hhigh : (b.extractLsb' 4 4).toNat = b.toNat / 16 := by
    have hb := b.isLt
    rw [BitVec.extractLsb'_toNat, Nat.shiftRight_eq_div_pow]
    omega
  rw [bitrev8, toNat_append_eq_add, revNibble, revNibble, hlow, hhigh]
  omega

/-- Settles O18: the table's bits, and from them those of the byte. -/
theorem bitReversal : Obligations.BitReversal :=
  ⟨fun b => ⟨toNat_bitrev8 b, fun _ hj => getLsbD_bitrev8 b hj, bitrev8_bitrev8 b⟩, rfl, getLsbD_nibbleRev⟩

end Sys2Proof.Machine
end

section
/-! PROOF. The ring's start and snapshots (spec/42_ring.md R182, R183, R196, R197): what a command of one step does on a
free port, the least power of two RESIZE takes, and the storage with nothing listed. -/

namespace Sys2Proof.Machine

/-! Commands of one step on a free port (R15, R322). -/

theorem State.progress_of_portFree {s : State} {i : Instr} (h : s.portFree i.port) : s.progress i = .fresh :=
  (State.progress_fresh_iff s i).2 h

theorem State.progress_of_atStage {s : State} {i : Instr} {st : Stage} (h : s.atStage i st) : s.progress i = .at st :=
  (State.progress_at_iff s i st).2 h

/-- A command of one step is its body on a free port. -/
theorem oneStep_of_portFree {i : Instr} {s : State} (h : s.portFree i.port) (body : Result) :
    oneStep i s body = body := by
  rw [oneStep, State.progress_of_portFree h]

/-- Under exclusive ownership a one-step command of K is answered (DONE, 0, 0). -/
theorem underExcl_of_excl {i : Instr} {s : State} (h : s.portFree i.port) (hexcl : s.phaseK = .excl) (t : State) :
    underExcl i s t = .next (t.finish .config (done 0 0)) := by
  rw [underExcl, oneStep_of_portFree h, needExcl_eq_none.2 hexcl]

/-! The storage made new (R22, R182, R183). -/

/-- With nothing listed, every offset reads as the silence byte. -/
@[simp] theorem State.emptyRing_ringByte (s : State) (o : Nat) : s.emptyRing.ringByte o = s.silence := rfl

/-- Settles O22: CLEAR is one step under exclusive ownership, and empties the storage. -/
theorem clearEmptiesRing : Obligations.ClearEmptiesRing := by
  intro s hfree hexcl
  refine ⟨_, underExcl_of_excl (i := .clear) hfree hexcl _, rfl, fun o => ?_⟩
  rw [State.finish_ringByte, State.s24Reset_ringByte, State.emptyRing_ringByte]

/-! The least power of two (R12, R182). -/

/-- `clog2` of a 32-bit capacity is the ceiling of its logarithm: the search up to 32 finds it. -/
theorem clog2_eq_clog {c : Nat} (h : c ≤ 2 ^ 32) : clog2 c = Nat.clog 2 c := by
  have hfind : (List.range 33).find? (fun k => decide (c ≤ 2 ^ k)) = some (Nat.clog 2 c) := by
    rw [List.find?_range_eq_some]
    refine ⟨by simpa using Nat.le_pow_clog one_lt_two c, ?_, fun j hj => ?_⟩
    · have hle := Nat.clog_le_of_le_pow h
      exact List.mem_range.2 (by omega)
    · simpa using Nat.pow_lt_of_lt_clog hj
  rw [clog2, hfind, Option.getD_some]

/-- The 6 bits of `SIZE_LOG2` hold `clog2` of every capacity. -/
theorem toNat_clog2_capacity (capacity : Word) :
    (BitVec.ofNat 6 (clog2 capacity.toNat)).toNat = Nat.clog 2 capacity.toNat := by
  have hcap : capacity.toNat ≤ 2 ^ 32 := capacity.isLt.le
  have hle := Nat.clog_le_of_le_pow hcap
  rw [clog2_eq_clog hcap, BitVec.toNat_ofNat]
  exact Nat.mod_eq_of_lt (by omega)

/-- Settles O21: RESIZE is one step under exclusive ownership; its new `SIZE_LOG2` is the ceiling of the capacity's
logarithm, and its new storage is empty. -/
theorem resizeMakesEmptyRing : Obligations.ResizeMakesEmptyRing := by
  intro capacity silenceByte s hfree hexcl
  refine ⟨_, Nat.clog 2 capacity.toNat, underExcl_of_excl (i := .resize capacity silenceByte) hfree hexcl _,
    Nat.le_pow_clog one_lt_two _, fun _ hj => Nat.clog_le_of_le_pow hj, ?size, rfl, fun o => ?byte⟩
  case size =>
    rw [State.finish_size, State.s24Reset_size, State.emptyRing_size, State.size, toNat_clog2_capacity]
  case byte => rw [State.finish_ringByte, State.s24Reset_ringByte, State.emptyRing_ringByte]

/-! The snapshots (R196, R197). -/

/-- A data port needs an active guard for a snapshot, K nothing. -/
theorem State.needSnapshot_eq_none {s : State} {p : Port} :
    s.needSnapshot p = none ↔ (p = .producer → s.phaseP ≠ .idle) ∧ (p = .consumer → s.phaseC ≠ .idle) := by
  cases p <;> simp [State.needSnapshot]

theorem snapshot_of_portFree {i : Instr} {s : State} (h : s.portFree i.port) (hneed : s.needSnapshot i.port = none)
    (v : Word) : snapshot i v s = .next (s.finish i.port (done v 0)) := by
  rw [snapshot, oneStep_of_portFree h, hneed]

/-- Settles O27: AVAIL and FREE are snapshots of the two masked differences. -/
theorem snapshotsReadPositions : Obligations.SnapshotsReadPositions := by
  intro p s hfree hproducer hconsumer
  have hneed : s.needSnapshot p = none := State.needSnapshot_eq_none.2 ⟨hproducer, hconsumer⟩
  exact ⟨snapshot_of_portFree (i := .avail p) hfree hneed _, snapshot_of_portFree (i := .free p) hfree hneed _⟩

end Sys2Proof.Machine
end

section
/-! PROOF. PUSH and POP (spec/42_ring.md R184, R186): each labelled step as an equation of its command, and the bytes
the moving steps put into the ring and into HOST memory. -/

namespace Sys2Proof.Machine

section
variable {src dst len pos : Word} {n : Nat} {s t : State} {v : List Byte}

/-! PUSH. -/

/-- s1 of PUSH: nothing to move completes it, else it goes on with the position it read. -/
theorem exec_push_of_portFree (h : s.portFree .producer) (hphase : s.phaseP = .guarded) :
    exec (.push src len) s =
      if min len.toNat s.free.toNat = 0 then .next (s.finish .producer (done 0 0))
      else .next (s.goTo (.push src len) (.move s.wp (min len.toNat s.free.toNat))) := by
  simp only [exec, execPush, State.progress_of_portFree (i := .push src len) h, needGuarded_eq_none.2 hphase]

/-- s2 of PUSH, its HOST access admitted and its bytes taken by the ring. -/
theorem exec_push_of_move (h : s.atStage (.push src len) (.move pos n))
    (hhost : s.hostRefusal .producer [rangeAt src n] [] = none)
    (hput : s.ringPut pos (s.memReadHost src.toNat n) = some t) :
    exec (.push src len) s = .next (t.goTo (.push src len) (.publish pos n)) := by
  simp only [exec, execPush, State.progress_of_atStage h, hhost, hput]

/-- s3 of PUSH. -/
theorem exec_push_of_publish (h : s.atStage (.push src len) (.publish pos n)) :
    exec (.push src len) s =
      .next ({ s with wp := advancePos s.mask pos n }.finish .producer (done (BitVec.ofNat 32 n) 0)) := by
  simp only [exec, execPush, State.progress_of_atStage h]

/-! POP. -/

/-- s1 of POP: nothing to move completes it, else it goes on with the position it read. -/
theorem exec_pop_of_portFree (h : s.portFree .consumer) (hphase : s.phaseC = .guarded) :
    exec (.pop dst len) s =
      if min len.toNat s.avail.toNat = 0 then .next (s.finish .consumer (done 0 0))
      else .next (s.goTo (.pop dst len) (.move s.rp (min len.toNat s.avail.toNat))) := by
  simp only [exec, execPop, State.progress_of_portFree (i := .pop dst len) h, needGuarded_eq_none.2 hphase]

/-- s2 of POP, its HOST access admitted and its bytes given by the ring. -/
theorem exec_pop_of_move (h : s.atStage (.pop dst len) (.move pos n))
    (hhost : s.hostRefusal .consumer [] [rangeAt dst n] = none) (hget : s.ringGet pos n = some v) :
    exec (.pop dst len) s = .next ((s.memWriteHost dst.toNat v).goTo (.pop dst len) (.publish pos n)) := by
  simp only [exec, execPop, State.progress_of_atStage h, hhost, hget]

/-- s3 of POP. -/
theorem exec_pop_of_publish (h : s.atStage (.pop dst len) (.publish pos n)) :
    exec (.pop dst len) s =
      .next ({ s with rp := advancePos s.mask pos n }.finish .consumer (done (BitVec.ofNat 32 n) 0)) := by
  simp only [exec, execPop, State.progress_of_atStage h]

end

/-! Bytes moved between HOST memory and the ring (R181). -/

/-- A byte of a list given by its positions. -/
theorem getD_map_range {f : Nat → Byte} {n k : Nat} (h : k < n) : ((List.range n).map f).getD k 0 = f k := by
  simp [List.getD_eq_getElem?_getD, h]

/-- `ring_put` of `n` HOST bytes: they land around the wrap, and nothing else of the state changes. -/
theorem State.ringPut_memReadHost (s : State) {pos : Word} {n : Nat} (addr : Nat) (hpos : pos.toNat < s.size)
    (hn : n < s.size) :
    ∃ t, s.ringPut pos (s.memReadHost addr n) = some t ∧ t = { s with ring := t.ring } ∧
      (∀ k < n, t.ringByte ((pos.toNat + k) % s.size) = s.hostByte (addr + k)) ∧
      ∀ o, ¬ s.inRingRange pos.toNat n o → t.ringByte o = s.ringByte o := by
  have hlen := s.memReadHost_length addr n
  obtain ⟨t, hput, hbytes, hother⟩ := s.ringPut_bytes pos (s.memReadHost addr n) hpos (by omega)
  rw [hlen] at hbytes hother
  refine ⟨t, hput, (s.ringPut_frame t pos _ hput).1, fun k hk => ?_, hother⟩
  rw [hbytes k hk, State.memReadHost_eq_map, getD_map_range hk]

/-- HOST memory after `n` bytes of the ring, read around the wrap, are written to it. -/
theorem State.memWriteHost_ringBytes (s : State) (addr pos n : Nat) :
    let t := s.memWriteHost addr ((List.range n).map (fun k => s.ringByte ((pos + k) % s.size)))
    (∀ k < n, t.hostByte (addr + k) = s.ringByte ((pos + k) % s.size)) ∧
      ∀ a, a < addr ∨ addr + n ≤ a → t.hostByte a = s.hostByte a := by
  obtain ⟨hbytes, hother⟩ :=
    s.memWriteHost_bytes addr ((List.range n).map (fun k => s.ringByte ((pos + k) % s.size)))
  rw [List.length_map, List.length_range] at hbytes hother
  exact ⟨fun k hk => (hbytes k hk).trans (getD_map_range hk), hother⟩

/-- Settles O23: the steps of PUSH one by one; `ring_put` says where the bytes of its moving step land. -/
theorem pushSteps : Obligations.PushSteps := by
  intro src len s
  refine ⟨fun hfree hphase hzero => ?nothing, fun hfree hphase hpos => ?start,
    fun w n hat hw hn hhost => ?move, fun w n hat => exec_push_of_publish hat⟩
  case nothing => rw [exec_push_of_portFree hfree hphase, if_pos hzero]; rfl
  case start => rw [exec_push_of_portFree hfree hphase, if_neg hpos.ne']
  case move =>
    obtain ⟨t, hput, hframe, hbytes, hother⟩ := s.ringPut_memReadHost src.toNat hw hn
    refine ⟨_, exec_push_of_move hat hhost hput, ?_, fun k hk => ?_, fun o ho => ?_⟩
    · rw [State.goTo_ring, ← hframe]
    · rw [State.goTo_ringByte, hbytes k hk]
    · rw [State.goTo_ringByte, hother o ho]

/-- Settles O24: the steps of POP one by one; `ring_get` answers, and its bytes are those written to HOST memory. -/
theorem popSteps : Obligations.PopSteps := by
  intro dst len s
  refine ⟨fun hfree hphase hzero => ?nothing, fun hfree hphase hpos => ?start,
    fun r n hat hr hn hhost => ?move, fun r n hat => exec_pop_of_publish hat⟩
  case nothing => rw [exec_pop_of_portFree hfree hphase, if_pos hzero]; rfl
  case start => rw [exec_pop_of_portFree hfree hphase, if_neg hpos.ne']
  case move =>
    obtain ⟨hbytes, hother⟩ := s.memWriteHost_ringBytes dst.toNat r.toNat n
    refine ⟨_, exec_pop_of_move hat hhost (s.ringGet_bytes r n hr hn.le), ?_, fun k hk => ?_, fun a ha => ?_⟩
    · rw [State.goTo_host]; rfl
    · rw [State.goTo_hostByte, hbytes k hk]
    · rw [State.goTo_hostByte, hother a ha]

end Sys2Proof.Machine
end

section
/-! PROOF. The ring windows (spec/42_ring.md R190, R194): an access inside the open region answers, one outside it or
with none open is refused. -/

namespace Sys2Proof.Machine

/-! The test of an access. -/

theorem insideRegion_iff {r : Option Region} {off n : Nat} : insideRegion r off n = true ↔
    ∃ g, r = some g ∧ g.base.toNat ≤ off ∧ off + n ≤ g.base.toNat + g.len := by
  cases r <;> simp [insideRegion]

/-- An access outside the open region, or with none open, fails the test. -/
theorem not_insideRegion_of_outside {f : DataPhase} {r : Option Region} {off n : Nat}
    (h : f ≠ .region ∨ ∀ g, r = some g → off < g.base.toNat ∨ g.base.toNat + g.len < off + n) :
    ¬ (f = .region ∧ insideRegion r off n = true) := by
  rintro ⟨hphase, hinside⟩
  obtain ⟨g, hg, hbase, hend⟩ := insideRegion_iff.1 hinside
  rcases h with hne | houtside
  · exact hne hphase
  · have := houtside g hg
    omega

/-! The accesses. -/

/-- `RingRead` of a range within SIZE, byte by byte. -/
theorem State.ringRead_eq_map (s : State) {off n : Nat} (h : off + n ≤ s.size) :
    s.ringRead off n = some ((List.range n).map (fun k => s.ringByte (off + k))) := by
  rw [State.ringRead, if_pos h, memRead_eq_map]
  rfl

/-- A window write inside the open region stores its bytes, and changes nothing else but the record. -/
theorem winWrite_of_inside {s : State} {off : Word} {v : List Byte} {g : Region} (hphase : s.phaseP = .region)
    (hregion : s.wregion = some g) (hbase : g.base.toNat ≤ off.toNat)
    (hend : off.toNat + v.length ≤ g.base.toNat + g.len) (hsize : g.base.toNat + g.len ≤ s.size) :
    ∃ t, winWrite off v s = .next t ∧ t = { s with ring := t.ring, winWritten := t.winWritten } ∧
      (∀ k < v.length, t.ringByte (off.toNat + k) = v.getD k 0) ∧
      (∀ o, o < off.toNat ∨ off.toNat + v.length ≤ o → t.ringByte o = s.ringByte o) := by
  have hinside := insideRegion_iff.2 ⟨g, hregion, hbase, hend⟩
  have hwrite := (s.ringWrite_eq_some _ off.toNat v).2 ⟨hend.trans hsize, rfl⟩
  obtain ⟨hbytes, hother⟩ := s.ringWrite_bytes _ _ _ hwrite
  refine ⟨{ s with
      ring := memWrite s.silence s.ring off.toNat v
      winWritten := addOffsets s.winWritten off.toNat v.length }, ?_, rfl, hbytes, hother⟩
  rw [winWrite, if_pos ⟨hphase, hinside⟩, hwrite]

/-- A window read inside the open region returns its bytes, and changes no state of the block. -/
theorem winRead_of_inside {s : State} {off n : Word} {g : Region} (hphase : s.phaseC = .region)
    (hregion : s.rregion = some g) (hbase : g.base.toNat ≤ off.toNat)
    (hend : off.toNat + n.toNat ≤ g.base.toNat + g.len) (hsize : g.base.toNat + g.len ≤ s.size) :
    winRead off n s =
      .next { s with window := (List.range n.toNat).map (fun k => s.ringByte (off.toNat + k)) } := by
  have hinside := insideRegion_iff.2 ⟨g, hregion, hbase, hend⟩
  rw [winRead, if_pos ⟨hphase, hinside⟩, s.ringRead_eq_map (hend.trans hsize)]

theorem winWrite_of_outside {s : State} {off : Word} {v : List Byte}
    (h : s.phaseP ≠ .region ∨ ∀ g, s.wregion = some g →
      off.toNat < g.base.toNat ∨ g.base.toNat + g.len < off.toNat + v.length) :
    winWrite off v s = .refused .windowOutside := by
  rw [winWrite, if_neg (not_insideRegion_of_outside h)]

theorem winRead_of_outside {s : State} {off n : Word}
    (h : s.phaseC ≠ .region ∨ ∀ g, s.rregion = some g →
      off.toNat < g.base.toNat ∨ g.base.toNat + g.len < off.toNat + n.toNat) :
    winRead off n s = .refused .windowOutside := by
  rw [winRead, if_neg (not_insideRegion_of_outside h)]

/-! The accesses as entries of the schedule: neither the latch nor a command in flight is asked (R283, log 28). -/

theorem step_of_winWrite {s : State} {off : Word} {v : List Byte} {es : List Event}
    (h : s.schedule = .winWrite off v :: es) : step s = winWrite off v { s with schedule := es } := by
  simp only [step, nextEvent, h, handle]

theorem step_of_winRead {s : State} {off n : Word} {es : List Event} (h : s.schedule = .winRead off n :: es) :
    step s = winRead off n { s with schedule := es } := by
  simp only [step, nextEvent, h, handle]

/-- Settles O28: a scheduled access is the access itself in the state with its entry taken, and answers inside the
region or is refused outside it. -/
theorem windowAccesses : Obligations.WindowAccesses := by
  refine ⟨fun s off v es g hschedule hphase hregion hbase hend hsize => ?writeInside,
    fun s off v es hschedule houtside => ?writeOutside,
    fun s off n es g hschedule hphase hregion hbase hend hsize => ?readInside,
    fun s off n es hschedule houtside => ?readOutside⟩
  case writeInside =>
    rw [step_of_winWrite hschedule]
    exact winWrite_of_inside (s := { s with schedule := es }) hphase hregion hbase hend hsize
  case writeOutside =>
    rw [step_of_winWrite hschedule]
    exact winWrite_of_outside houtside
  case readInside =>
    rw [step_of_winRead hschedule]
    exact winRead_of_inside (s := { s with schedule := es }) hphase hregion hbase hend hsize
  case readOutside =>
    rw [step_of_winRead hschedule]
    exact winRead_of_outside houtside

end Sys2Proof.Machine
end

section
/-! PROOF. The steps the converting pushes share (spec/43_convert_push.md R220): each labelled step as an equation of
`convertPush`, and the bytes its moving steps put into the staging buffer and into the ring. -/

namespace Sys2Proof.Machine

/-! Bytes moved into and out of a staging buffer (R14, R28). -/

/-- `StgWrite` from offset 0 of bytes that fit: they stand from there on, and nothing else of the state changes. -/
theorem State.stgWrite_zero_bytes (s : State) (j : StgBuf) {v : List Byte} (hv : v.length ≤ 65536) :
    ∃ t, s.stgWrite j 0 v = some t ∧ t = s.setStg j (t.stg j) ∧ (∀ k < v.length, t.stgByte j k = v.getD k 0) ∧
      ∀ o, v.length ≤ o → t.stgByte j o = s.stgByte j o := by
  have hfits : 0 + v.length ≤ stagingSize := by rwa [Nat.zero_add]
  refine ⟨_, (s.stgWrite_eq_some _ j 0 v).2 ⟨hfits, rfl⟩, by rw [State.setStg_stg_same], fun k hk => ?inside,
    fun o ho => ?outside⟩
  case inside =>
    rw [State.stgByte, State.setStg_stg_same, memGet_memWrite, if_pos (by omega), Nat.sub_zero]
  case outside =>
    rw [State.stgByte, State.setStg_stg_same, memGet_memWrite_out _ _ _ _ _ (by omega)]
    rfl

/-- `ring_put` of the first `n` bytes of a staging buffer: they land around the wrap, and nothing else of the state
changes. -/
theorem State.ringPut_stgBytes (s : State) (j : StgBuf) {pos : Word} {n : Nat} (hstg : n ≤ 65536)
    (hpos : pos.toNat < s.size) (hn : n < s.size) :
    ∃ v t, s.stgRead j 0 n = some v ∧ s.ringPut pos v = some t ∧ t = { s with ring := t.ring } ∧
      (∀ k < n, t.ringByte ((pos.toNat + k) % s.size) = s.stgByte j k) ∧
      ∀ o, ¬ s.inRingRange pos.toNat n o → t.ringByte o = s.ringByte o := by
  have hlen : ((List.range n).map fun k => s.stgByte j (0 + k)).length = n := by simp
  obtain ⟨t, hput, hbytes, hother⟩ := s.ringPut_bytes pos _ hpos (hlen.trans_le hn.le)
  rw [hlen] at hbytes hother
  refine ⟨_, t, (s.stgRead_eq_some j 0 n _).2 ⟨by rwa [Nat.zero_add], rfl⟩, hput, (s.ringPut_frame t pos _ hput).1,
    fun k hk => ?_, hother⟩
  rw [hbytes k hk, getD_map_range hk, Nat.zero_add]

/-- A byte of a HOST range read. -/
theorem State.memReadHost_getD (s : State) {addr n k : Nat} (h : k < n) :
    (s.memReadHost addr n).getD k 0 = s.hostByte (addr + k) := by
  rw [State.memReadHost_eq_map, getD_map_range h]

/-! The labelled steps (R220). -/

section
variable {k : Converting} {s u t : State} {w : Word} {n : Nat} {out : List Byte}

/-- s1 with nothing to convert. -/
theorem convertPush_of_bound_eq_zero (hport : k.instr.port = .producer) (hfree : s.portFree .producer)
    (hphase : s.phaseP = .guarded) (hzero : bound k.len.toNat k.uin k.uout s.free.toNat = 0) :
    convertPush k s = .next (s.finish .producer (done 0 0)) := by
  have hfresh : s.progress k.instr = .fresh := State.progress_of_portFree (hport ▸ hfree)
  simp only [convertPush, hfresh, needGuarded_eq_none.2 hphase, if_pos hzero]

/-- s1 with `n` units to convert. -/
theorem convertPush_of_bound_eq (hport : k.instr.port = .producer) (hfree : s.portFree .producer)
    (hphase : s.phaseP = .guarded) (hbound : bound k.len.toNat k.uin k.uout s.free.toNat = n) (hpos : 0 < n) :
    convertPush k s = .next (s.goTo k.instr (.move s.wp n)) := by
  have hfresh : s.progress k.instr = .fresh := State.progress_of_portFree (hport ▸ hfree)
  simp only [convertPush, hfresh, needGuarded_eq_none.2 hphase, hbound, if_neg hpos.ne']

/-- s2, its HOST accesses admitted and its output fitting the staging buffer: the buffer's first bytes are the output,
the rest of the state is what the conversion left. -/
theorem convertPush_of_move (hat : s.atStage k.instr (.move w n))
    (hhost : s.hostRefusal .producer (k.reads n) [] = none) (hconv : k.convert n s = (u, out))
    (hout : out.length ≤ 65536) :
    ∃ t, convertPush k s = .next t ∧ t = (u.setStg k.buf (t.stg k.buf)).goTo k.instr (.transfer w n) ∧
      (∀ i < out.length, t.stgByte k.buf i = out.getD i 0) ∧
      ∀ o, out.length ≤ o → t.stgByte k.buf o = u.stgByte k.buf o := by
  obtain ⟨t, hwrite, hframe, hbytes, hother⟩ := u.stgWrite_zero_bytes k.buf hout
  refine ⟨t.goTo k.instr (.transfer w n), ?_, ?_, fun i hi => ?_, fun o ho => ?_⟩
  · simp only [convertPush, State.progress_of_atStage hat, hhost, hconv, hwrite]
  · rw [State.goTo_stg, ← hframe]
  · rw [State.goTo_stgByte, hbytes i hi]
  · rw [State.goTo_stgByte, hother o ho]

/-- Whatever s2 answers is what the conversion left, but for the staging buffer and the stage. -/
theorem convertPush_next_of_move (hat : s.atStage k.instr (.move w n)) (hnext : convertPush k s = .next t) :
    ∃ m, t = ((k.convert n s).1.setStg k.buf m).goTo k.instr (.transfer w n) := by
  simp only [convertPush, State.progress_of_atStage hat] at hnext
  split at hnext
  · cases hnext
  · split at hnext
    · cases hnext
    next v hwrite =>
      cases hnext
      exact ⟨_, by rw [((State.stgWrite_eq_some _ v _ _ _).1 hwrite).2]⟩

/-- s3: the converted bytes go into the ring, around the wrap, and nothing else of the state changes. -/
theorem convertPush_of_transfer (hat : s.atStage k.instr (.transfer w n)) (hstg : k.uout * n ≤ 65536)
    (hw : w.toNat < s.size) (hn : k.uout * n < s.size) :
    ∃ t, convertPush k s = .next t ∧ t = ({ s with ring := t.ring }).goTo k.instr (.publish w n) ∧
      (∀ i < k.uout * n, t.ringByte ((w.toNat + i) % s.size) = s.stgByte k.buf i) ∧
      ∀ o, ¬ s.inRingRange w.toNat (k.uout * n) o → t.ringByte o = s.ringByte o := by
  obtain ⟨v, t, hread, hput, hframe, hbytes, hother⟩ := s.ringPut_stgBytes k.buf hstg hw hn
  refine ⟨t.goTo k.instr (.publish w n), ?_, ?_, fun i hi => ?_, fun o ho => ?_⟩
  · simp only [convertPush, State.progress_of_atStage hat, hread, hput]
  · rw [State.goTo_ring, ← hframe]
  · rw [State.goTo_ringByte, hbytes i hi]
  · rw [State.goTo_ringByte, hother o ho]

/-- s4. -/
theorem convertPush_of_publish (hat : s.atStage k.instr (.publish w n)) :
    convertPush k s = .next ({ s with wp := advancePos s.mask w (k.uout * n) }.finish .producer
      (done (BitVec.ofNat 32 (k.uin * n)) 0)) := by
  simp only [convertPush, State.progress_of_atStage hat]

end

/-! The three converting pushes (R221, R230, R236). -/

/-- What PUSH24 is made of. -/
def push24Converting (src len : Word) : Converting where
  instr := .push24 src len
  len := len
  uin := 4
  uout := 3
  buf := .pack24
  reads n := [rangeAt src (4 * n)]
  convert := convert24 src

/-- What PUSH16 is made of. -/
def push16Converting (src len : Word) : Converting where
  instr := .push16 src len
  len := len
  uin := 2
  uout := 4
  buf := .up16
  reads n := [rangeAt src (2 * n)]
  convert n s := (s, up16to32 n (s.memReadHost src.toNat (2 * n)))

/-- What PUSHDSD is made of. -/
def pushdsdConverting (src len : Word) (channels : Byte) (rev swap : Bool) : Converting where
  instr := .pushdsd src len channels rev swap
  len := len
  uin := 4 * channels.toNat
  uout := 4 * channels.toNat
  buf := .dsd
  reads g := planarRanges src (len.toNat / channels.toNat) (4 * g) channels.toNat
  convert g s := (s, dsdInterleave (planarBlocks src len channels g s) g rev swap)

theorem exec_push24 (src len : Word) (s : State) :
    exec (.push24 src len) s = convertPush (push24Converting src len) s := rfl

theorem exec_push16 (src len : Word) (s : State) :
    exec (.push16 src len) s = convertPush (push16Converting src len) s := rfl

theorem exec_pushdsd (src len : Word) (channels : Byte) (rev swap : Bool) (s : State) :
    exec (.pushdsd src len channels rev swap) s = convertPush (pushdsdConverting src len channels rev swap) s := rfl

end Sys2Proof.Machine
end

section
/-! PROOF. The S24 state (spec/43_convert_push.md R224, R227): detection as one equation per branch, what it leaves, and
the hint. -/

namespace Sys2Proof.Machine

/-! Detection (R224). -/

/-- The zero test of byte `k` of the first samples of a HOST range. -/
theorem allZeroAt_memReadHost_iff {s : State} {addr n m k : Nat} (hm : m ≤ n) (hk : k < 4) :
    allZeroAt (s.memReadHost addr (4 * n)) k m = true ↔ ∀ j < m, s.hostByte (addr + 4 * j + k) = 0 := by
  have hbyte : ∀ j < m, (s.memReadHost addr (4 * n)).getD (4 * j + k) 0 = s.hostByte (addr + 4 * j + k) := by
    intro j hj
    rw [s.memReadHost_getD (by omega), Nat.add_assoc]
  simp only [allZeroAt, List.all_eq_true, List.mem_range, decide_eq_true_eq]
  exact forall₂_congr fun j hj => by rw [hbyte j hj]

section
variable {s : State} {bytes : List Byte} {n : Nat}

theorem State.s24Detect_of_lsb (hlow : allZeroAt bytes 0 (min 32 n) = false)
    (hhigh : allZeroAt bytes 3 (min 32 n) = true) :
    s.s24Detect bytes n = { s with s24Mode := .lsbAligned, s24Confirmed := true } := by
  simp [State.s24Detect, s24DetectSamples, hlow, hhigh]

theorem State.s24Detect_of_msb (hlow : allZeroAt bytes 0 (min 32 n) = true)
    (hhigh : allZeroAt bytes 3 (min 32 n) = false) :
    s.s24Detect bytes n = { s with s24Mode := .msbAligned, s24Confirmed := true } := by
  simp [State.s24Detect, s24DetectSamples, hlow, hhigh]

theorem State.s24Detect_of_silence (hlow : allZeroAt bytes 0 (min 32 n) = true)
    (hhigh : allZeroAt bytes 3 (min 32 n) = true) : s.s24Detect bytes n = s.s24Silence n := by
  simp [State.s24Detect, s24DetectSamples, hlow, hhigh]

theorem State.s24Detect_of_ambiguous (hlow : allZeroAt bytes 0 (min 32 n) = false)
    (hhigh : allZeroAt bytes 3 (min 32 n) = false) : s.s24Detect bytes n = s := by
  simp [State.s24Detect, s24DetectSamples, hlow, hhigh]

/-- The silent count of a call that does not pass 2^32. -/
theorem toNat_add_silent {c : BitVec 32} (h : c.toNat + n < 2 ^ 32) : (c + BitVec.ofNat 32 n).toNat = c.toNat + n := by
  rw [BitVec.toNat_add, BitVec.toNat_ofNat, Nat.add_mod_mod, Nat.mod_eq_of_lt h]

/-- Silence past the timeout confirms the hint, or LSB without one. -/
theorem State.s24Silence_of_timeout (hcount : s.s24SilentCount.toNat + n < 2 ^ 32)
    (htimeout : 48000 < s.s24SilentCount.toNat + n) :
    s.s24Silence n = { s with
      s24Mode := (S24Hint.mode s.s24Hint).getD .lsbAligned
      s24Confirmed := true
      s24SilentCount := s.s24SilentCount + BitVec.ofNat 32 n } := by
  simp [State.s24Silence, s24SilenceTimeout, toNat_add_silent hcount, htimeout]

/-- Silence within the timeout defers an unresolved mode. -/
theorem State.s24Silence_of_counting (hcount : s.s24SilentCount.toNat + n < 2 ^ 32)
    (htimeout : s.s24SilentCount.toNat + n ≤ 48000) :
    s.s24Silence n = { s with
      s24Mode := if s.s24Mode.unresolved then .deferred else s.s24Mode
      s24SilentCount := s.s24SilentCount + BitVec.ofNat 32 n } := by
  simp [State.s24Silence, s24SilenceTimeout, toNat_add_silent hcount, htimeout.not_gt]

end

/-! What may change. -/

/-- `t` is `s` but for the mode, its confirmation and the silent count. -/
def S24Frame (s t : State) : Prop :=
  t = { s with s24Mode := t.s24Mode, s24Confirmed := t.s24Confirmed, s24SilentCount := t.s24SilentCount }

theorem S24Frame.eq {s t : State} (h : S24Frame s t) :
    t = { s with s24Mode := t.s24Mode, s24Confirmed := t.s24Confirmed, s24SilentCount := t.s24SilentCount } := h

theorem S24Frame.s24Hint_eq {s t : State} (h : S24Frame s t) : t.s24Hint = s.s24Hint := by
  rw [h.eq]

theorem S24Frame.stgByte_eq {s t : State} (h : S24Frame s t) (j : StgBuf) (o : Nat) :
    t.stgByte j o = s.stgByte j o := by
  rw [h.eq]
  rfl

theorem State.s24Silence_frame (s : State) (n : Nat) : S24Frame s (s.s24Silence n) := by
  unfold State.s24Silence
  dsimp only
  split <;> rfl

theorem State.s24Detect_frame (s : State) (bytes : List Byte) (n : Nat) : S24Frame s (s.s24Detect bytes n) := by
  cases hlow : allZeroAt bytes 0 (min 32 n) <;> cases hhigh : allZeroAt bytes 3 (min 32 n)
  case false.false => rw [State.s24Detect_of_ambiguous hlow hhigh]; rfl
  case false.true => rw [State.s24Detect_of_lsb hlow hhigh]; rfl
  case true.false => rw [State.s24Detect_of_msb hlow hhigh]; rfl
  case true.true => rw [State.s24Detect_of_silence hlow hhigh]; exact s.s24Silence_frame n

/-! Detection in PUSH24's converting step (R221, R222). -/

section
variable {src : Word} {n : Nat} {s : State}

theorem convert24_fst_of_confirmed (h : s.s24Confirmed = true) : (convert24 src n s).1 = s := by
  simp [convert24, h]

theorem convert24_fst_of_unconfirmed (h : s.s24Confirmed = false) :
    (convert24 src n s).1 = s.s24Detect (s.memReadHost src.toNat (4 * n)) n := by
  simp [convert24, h]

theorem convert24_frame (src : Word) (n : Nat) (s : State) : S24Frame s (convert24 src n s).1 := by
  cases h : s.s24Confirmed
  case true => rw [convert24_fst_of_confirmed h]; rfl
  case false => rw [convert24_fst_of_unconfirmed h]; exact s.s24Detect_frame _ n

/-- The alignment packed by is that of the mode after detection. -/
theorem convert24_snd (src : Word) (n : Nat) (s : State) :
    (convert24 src n s).2 =
      if (convert24 src n s).1.s24Mode = .msbAligned then pack24Msb n (s.memReadHost src.toNat (4 * n))
      else pack24Lsb n (s.memReadHost src.toNat (4 * n)) := rfl

end

/-- Settles O32: the converting step leaves the S24 state the conversion left, and each branch of detection has its
equation. -/
theorem s24Detection : Obligations.S24Detection := by
  intro src len w n s t hat hcount hnext zl zh
  have hlow : allZeroAt (s.memReadHost src.toNat (4 * n)) 0 (min 32 n) = true ↔ zl :=
    allZeroAt_memReadHost_iff (Nat.min_le_right 32 n) (by omega)
  have hhigh : allZeroAt (s.memReadHost src.toNat (4 * n)) 3 (min 32 n) = true ↔ zh :=
    allZeroAt_memReadHost_iff (Nat.min_le_right 32 n) (by omega)
  rw [exec_push24] at hnext
  obtain ⟨m, rfl⟩ := convertPush_next_of_move hat hnext
  simp only [push24Converting, State.goTo_s24Hint, State.goTo_s24Mode, State.goTo_s24Confirmed,
    State.goTo_s24SilentCount, State.setStg_s24Hint, State.setStg_s24Mode, State.setStg_s24Confirmed,
    State.setStg_s24SilentCount]
  refine ⟨(convert24_frame src n s).s24Hint_eq, fun hconfirmed => ?confirmed, fun hunconfirmed => ?_⟩
  case confirmed => rw [convert24_fst_of_confirmed hconfirmed]; exact ⟨rfl, hconfirmed, rfl⟩
  rw [convert24_fst_of_unconfirmed hunconfirmed]
  refine ⟨fun hzh hzl => ?lsb, fun hzl hzh => ?msb, fun hzl hzh => ?silence, fun hzl hzh => ?ambiguous⟩
  case lsb =>
    rw [State.s24Detect_of_lsb (Bool.eq_false_iff.2 (mt hlow.1 hzl)) (hhigh.2 hzh)]
    exact ⟨rfl, rfl, rfl⟩
  case msb =>
    rw [State.s24Detect_of_msb (hlow.2 hzl) (Bool.eq_false_iff.2 (mt hhigh.1 hzh))]
    exact ⟨rfl, rfl, rfl⟩
  case silence =>
    rw [State.s24Detect_of_silence (hlow.2 hzl) (hhigh.2 hzh)]
    rcases Nat.lt_or_ge 48000 (s.s24SilentCount.toNat + n) with htimeout | hcounting
    · rw [State.s24Silence_of_timeout hcount htimeout]
      refine ⟨toNat_add_silent hcount, fun _ => ⟨rfl, ?_⟩, fun h => absurd h htimeout.not_ge⟩
      cases s.s24Hint <;> rfl
    · rw [State.s24Silence_of_counting hcount hcounting]
      refine ⟨toNat_add_silent hcount, fun h => absurd h hcounting.not_gt, fun _ => ⟨hunconfirmed, ?_⟩⟩
      cases s.s24Mode <;> rfl
  case ambiguous =>
    rw [State.s24Detect_of_ambiguous (Bool.eq_false_iff.2 (mt hlow.1 hzl)) (Bool.eq_false_iff.2 (mt hhigh.1 hzh))]
    exact ⟨rfl, hunconfirmed, rfl⟩

/-! The hint (R227). -/

/-- What S24HINT requires is met on P under a guard and on K under exclusive ownership. -/
theorem State.needHint_eq_none {s : State} {p : Port}
    (h : (p = .producer ∧ s.phaseP = .guarded) ∨ (p = .config ∧ s.phaseK = .excl)) : s.needHint p = none := by
  rcases h with ⟨rfl, hphase⟩ | ⟨rfl, hphase⟩
  · exact needGuarded_eq_none.2 hphase
  · exact needExcl_eq_none.2 hphase

theorem exec_s24hint_of_portFree {p : Port} {s : State} (hint : S24Hint) (hfree : s.portFree p) (hp : p ≠ .consumer)
    (hneed : s.needHint p = none) : exec (.s24hint p hint) s = .next ((s.applyHint hint).finish p (done 0 0)) := by
  simp only [exec, execS24hint, oneStep_of_portFree (i := .s24hint p hint) hfree, if_neg hp, hneed]

/-- Settles O36: S24HINT is one step on both its ports, and the hint is applied to each mode. -/
theorem hintIsStored : Obligations.HintIsStored := by
  intro p hint s hfree hphase
  have hp : p ≠ .consumer := by rcases hphase with ⟨rfl, -⟩ | ⟨rfl, -⟩ <;> decide
  rw [exec_s24hint_of_portFree hint hfree hp (State.needHint_eq_none hphase), State.applyHint]
  cases hint <;> cases s.s24Mode <;> rfl

end Sys2Proof.Machine
end

section
/-! PROOF. PUSH24, PUSH16 and PUSHDSD (spec/43_convert_push.md R221, R222, R230, R236): the shared steps, and the
converted bytes read from HOST memory. -/

namespace Sys2Proof.Machine

/-! PUSH24. -/

/-- The work bound of PUSH24 (R221). -/
theorem bound_push24 (len fr : Nat) : bound len 4 3 fr = min (len / 4) (min 21845 (fr / 3)) := by
  rw [bound, stagingSize]

/-- The pack of either alignment: its length and its bytes. -/
theorem pack24_bytes (s : State) (addr n : Nat) (mode : S24Mode) :
    let out := if mode = .msbAligned then pack24Msb n (s.memReadHost addr (4 * n))
      else pack24Lsb n (s.memReadHost addr (4 * n))
    out.length = 3 * n ∧ ∀ j < n, ∀ k < 3,
      out.getD (3 * j + k) 0 = s.hostByte (addr + 4 * j + (if mode = .msbAligned then k + 1 else k)) := by
  obtain ⟨hlsb, hmsb, hlsbBytes, hmsbBytes⟩ := pack24Layout n _ (s.memReadHost_length addr (4 * n)).ge
  dsimp only
  split
  case isTrue =>
    refine ⟨hmsb, fun j hj k hk => ?_⟩
    rw [List.getD_eq_getElem?_getD, hmsbBytes j hj k hk, ← List.getD_eq_getElem?_getD,
      s.memReadHost_getD (by omega)]
    congr 1
    omega
  case isFalse =>
    refine ⟨hlsb, fun j hj k hk => ?_⟩
    rw [List.getD_eq_getElem?_getD, hlsbBytes j hj k hk, ← List.getD_eq_getElem?_getD,
      s.memReadHost_getD (by omega), Nat.add_assoc]

/-- Settles O31: the shared steps with units of 4 and 3 bytes; the mode packed by is the one the step leaves. -/
theorem push24Steps : Obligations.Push24Steps := by
  intro src len s
  simp only [exec_push24]
  have hbound := bound_push24 len.toNat s.free.toNat
  refine ⟨fun hfree hphase hzero => convertPush_of_bound_eq_zero rfl hfree hphase (hbound.trans hzero),
    fun hfree hphase hpos => convertPush_of_bound_eq rfl hfree hphase hbound hpos,
    fun w n hat hn hhost => ?_,
    fun w n hat hn hw hsize => convertPush_of_transfer hat hn hw hsize,
    fun w n hat => convertPush_of_publish hat⟩
  have hframe := convert24_frame src n s
  obtain ⟨hlen, hpack⟩ := pack24_bytes s src.toNat n (convert24 src n s).1.s24Mode
  rw [← convert24_snd] at hlen hpack
  obtain ⟨t, hnext, ht, hbytes, hother⟩ :=
    convertPush_of_move (k := push24Converting src len) (u := (convert24 src n s).1) hat hhost rfl (hlen.trans_le hn)
  have hmode : t.s24Mode = (convert24 src n s).1.s24Mode := by
    rw [ht, State.goTo_s24Mode, State.setStg_s24Mode]
  have hconfirmed : t.s24Confirmed = (convert24 src n s).1.s24Confirmed := by
    rw [ht, State.goTo_s24Confirmed, State.setStg_s24Confirmed]
  have hsilent : t.s24SilentCount = (convert24 src n s).1.s24SilentCount := by
    rw [ht, State.goTo_s24SilentCount, State.setStg_s24SilentCount]
  refine ⟨t, hnext, ?_, fun j hj k hk => ?_, fun o ho => ?_⟩
  · rw [hmode, hconfirmed, hsilent]
    exact ht.trans (by rw [hframe.eq]; rfl)
  · rw [hmode, ← hpack j hj k hk]
    exact hbytes _ (hlen ▸ by omega)
  · exact (hother o (hlen.trans_le ho)).trans (hframe.stgByte_eq .pack24 o)

/-! PUSH16. -/

/-- The work bound of PUSH16 (R230). -/
theorem bound_push16 (len fr : Nat) : bound len 2 4 fr = min (len / 2) (min 16384 (fr / 4)) := by
  rw [bound, stagingSize]

/-- The widened samples of a HOST range: their length and their bytes. -/
theorem up16to32_bytes (s : State) (addr n : Nat) :
    let out := up16to32 n (s.memReadHost addr (2 * n))
    out.length = 4 * n ∧ ∀ j < n, out.getD (4 * j) 0 = 0 ∧ out.getD (4 * j + 1) 0 = 0 ∧
      out.getD (4 * j + 2) 0 = s.hostByte (addr + 2 * j) ∧
      out.getD (4 * j + 3) 0 = s.hostByte (addr + 2 * j + 1) := by
  obtain ⟨hlen, hbytes⟩ := up16Layout n _ (s.memReadHost_length addr (2 * n)).ge
  refine ⟨hlen, fun j hj => ?_⟩
  obtain ⟨hzero, hone, hlow, hhigh⟩ := hbytes j hj
  simp only [List.getD_eq_getElem?_getD, hzero, hone, hlow, hhigh, Option.getD_some, true_and]
  simp only [← List.getD_eq_getElem?_getD]
  exact ⟨s.memReadHost_getD (by omega), s.memReadHost_getD (by omega)⟩

/-- Settles O33: the shared steps with units of 2 and 4 bytes. -/
theorem push16Steps : Obligations.Push16Steps := by
  intro src len s
  simp only [exec_push16]
  have hbound := bound_push16 len.toNat s.free.toNat
  refine ⟨fun hfree hphase hzero => convertPush_of_bound_eq_zero rfl hfree hphase (hbound.trans hzero),
    fun hfree hphase hpos => convertPush_of_bound_eq rfl hfree hphase hbound hpos,
    fun w n hat hn hhost => ?_,
    fun w n hat hn hw hsize => convertPush_of_transfer hat hn hw hsize,
    fun w n hat => convertPush_of_publish hat⟩
  obtain ⟨hlen, hwide⟩ := up16to32_bytes s src.toNat n
  obtain ⟨t, hnext, ht, hbytes, hother⟩ :=
    convertPush_of_move (k := push16Converting src len) hat hhost rfl (hlen.trans_le hn)
  refine ⟨t, hnext, ht, fun j hj => ?_, fun o ho => hother o (hlen.trans_le ho)⟩
  obtain ⟨hzero, hone, hlow, hhigh⟩ := hwide j hj
  exact ⟨(hbytes _ (hlen ▸ by omega)).trans hzero, (hbytes _ (hlen ▸ by omega)).trans hone,
    (hbytes _ (hlen ▸ by omega)).trans hlow, (hbytes _ (hlen ▸ by omega)).trans hhigh⟩

/-! PUSHDSD. -/

/-- The work bound of PUSHDSD through the block stride (R236). -/
theorem bound_pushdsd (len channels fr : Nat) : bound len (4 * channels) (4 * channels) fr =
    min (len / channels / 4) (min (16384 / channels) (fr / (4 * channels))) := by
  have hstaging : stagingSize / (4 * channels) = 16384 / channels :=
    (Nat.div_div_eq_div_mul stagingSize 4 channels).symm
  rw [bound, hstaging, Nat.div_div_eq_div_mul, Nat.mul_comm channels 4]

section
variable {src len : Word} {channels : Byte} {g : Nat} {s : State}

theorem length_planarBlocks : (planarBlocks src len channels g s).length = channels.toNat := by
  simp [planarBlocks, planarRanges]

/-- Channel `c`'s block. -/
theorem getD_planarBlocks {c : Nat} (hc : c < channels.toNat) : (planarBlocks src len channels g s).getD c [] =
    s.memReadHost (src.toNat + c * (len.toNat / channels.toNat)) (4 * g) := by
  simp [planarBlocks, planarRanges, List.getD_eq_getElem?_getD, hc]

theorem length_of_mem_planarBlocks {b : List Byte} (hb : b ∈ planarBlocks src len channels g s) : 4 * g ≤ b.length := by
  obtain ⟨r, hr, rfl⟩ := List.mem_map.1 hb
  obtain ⟨c, -, rfl⟩ := List.mem_map.1 hr
  rw [State.memReadHost_length]

end

/-- Settles O34: the shared steps with units of one chunk of every channel; the interleaving's bytes are those of the
channels' blocks at the stride. -/
theorem pushDsdSteps : Obligations.PushDsdSteps := by
  intro src len ch rev swap s _
  simp only [exec_pushdsd]
  have hbound := bound_pushdsd len.toNat ch.toNat s.free.toNat
  refine ⟨fun hfree hphase hzero => convertPush_of_bound_eq_zero rfl hfree hphase (hbound.trans hzero),
    fun hfree hphase hpos => convertPush_of_bound_eq rfl hfree hphase hbound hpos,
    fun w g hat hg hhost => ?_,
    fun w g hat hg hw hsize => convertPush_of_transfer hat hg hw hsize,
    fun w g hat => convertPush_of_publish hat⟩
  obtain ⟨hlen, hinterleaved⟩ :=
    dsdLayout (planarBlocks src len ch g s) g rev swap fun _ hb => length_of_mem_planarBlocks hb
  rw [length_planarBlocks] at hlen hinterleaved
  obtain ⟨t, hnext, ht, hbytes, hother⟩ :=
    convertPush_of_move (k := pushdsdConverting src len ch rev swap) hat hhost rfl (hlen.trans_le hg)
  refine ⟨t, hnext, ht, fun j hj c hc k hk => ?_, fun o ho => hother o (hlen.trans_le ho)⟩
  have hchunk := chunk_end_le hj hc
  have hread : 4 * j + (if swap then 3 - k else k) < 4 * g := by split <;> omega
  refine (hbytes _ (hlen ▸ by omega)).trans ((hinterleaved j hj c hc k hk).trans ?_)
  rw [getD_planarBlocks hc, s.memReadHost_getD hread]

end Sys2Proof.Machine
end

section
/-! PROOF. The Access Guard (spec/44_guards_format.md R251, R254): each labelled step of GENTER as an equation of the
command, and GEXIT's one step. -/

namespace Sys2Proof.Machine

section
variable {p : DataPort} {s : State}

/-! GENTER (R251). -/

/-- g1 during a reconfiguration. -/
theorem exec_genter_of_reconfig (hfree : s.portFree p.port) (hidle : s.phase p = .idle) (hflag : s.reconfig = true) :
    exec (.genter p) s = .next (s.finish p.port inactive) := by
  simp only [exec, execGenter, State.progress_of_portFree (i := .genter p) hfree, if_pos hidle, if_pos hflag]

/-- g1 with no reconfiguration in progress. -/
theorem exec_genter_of_not_reconfig (hfree : s.portFree p.port) (hidle : s.phase p = .idle)
    (hflag : s.reconfig = false) : exec (.genter p) s = .next (s.goTo (.genter p) .g2) := by
  simp only [exec, execGenter, State.progress_of_portFree (i := .genter p) hfree, if_pos hidle, hflag,
    Bool.false_eq_true, ↓reduceIte]

theorem exec_genter_of_g2 (hat : s.atStage (.genter p) .g2) :
    exec (.genter p) s = .next (s.incUsers.goTo (.genter p) .g3) := by
  simp only [exec, execGenter, State.progress_of_atStage hat]

theorem exec_genter_of_g3 (hat : s.atStage (.genter p) .g3) :
    exec (.genter p) s = .next (s.goTo (.genter p) (.g4 s.reconfig)) := by
  simp only [exec, execGenter, State.progress_of_atStage hat]

/-- g4 decides by the flag that g3 read. -/
theorem exec_genter_of_g4 {flag : Bool} (hat : s.atStage (.genter p) (.g4 flag)) :
    exec (.genter p) s = if flag then .next (s.decUsers.finish p.port inactive)
      else .next ((s.setGuard p true .guarded).finish p.port (done 0 0)) := by
  simp only [exec, execGenter, State.progress_of_atStage hat]

/-! GEXIT (R254). -/

theorem exec_gexit_of_portFree (hfree : s.portFree p.port) (hphase : s.phase p ≠ .region) :
    exec (.gexit p) s =
      .next (((if s.reg p then s.decUsers else s).setGuard p false .idle).finish p.port (done 0 0)) := by
  simp only [exec, execGexit, oneStep_of_portFree (i := .gexit p) hfree, if_neg hphase]

end

/-- A conditional decrement changes the counter at most. -/
theorem State.ite_decUsers (s : State) (registered : Bool) : (if registered then s.decUsers else s) =
    { s with activeUsers := if registered then s.activeUsers - 1 else s.activeUsers } := by
  cases registered <;> rfl

/-- Settles O39, one labelled step at a time; the port matters only where g4 registers it. -/
theorem genterSteps : Obligations.GenterSteps := by
  intro p s
  refine ⟨exec_genter_of_reconfig, exec_genter_of_not_reconfig, exec_genter_of_g2, exec_genter_of_g3,
    exec_genter_of_g4, fun hat => ?registered⟩
  case registered =>
    rw [exec_genter_of_g4 hat]
    cases p <;> rfl

/-- Settles O40: the decrement and the port's own guard fields, on each port. -/
theorem gexitUndoesOwnRegistration : Obligations.GexitUndoesOwnRegistration := by
  intro p s hfree hphase
  rw [exec_gexit_of_portFree hfree hphase, State.ite_decUsers]
  cases p <;> rfl

end Sys2Proof.Machine
end

section
/-! PROOF. The fatal latch over one step (spec/60_exceptions.md R281, R283, R284): what each update does to the latch,
the one command that raises it, and what a turn, a schedule entry and a step of the machine can do to it. -/

namespace Sys2Proof.Machine

/-! The latch with its code (R50), as the state's updates leave it. -/

/-- The latch and its code, which no command but an overlapping copy writes. -/
def State.latch (s : State) : Bool × BitVec 8 := (s.fatal, s.fatalCode)

theorem State.latch_eq_iff {s t : State} : t.latch = s.latch ↔ t.fatal = s.fatal ∧ t.fatalCode = s.fatalCode :=
  Prod.mk_inj

@[simp] theorem State.latch_finish (s : State) (p : Port) (r : Response) : (s.finish p r).latch = s.latch := by
  simp [State.latch]

@[simp] theorem State.latch_goTo (s : State) (i : Instr) (st : Stage) : (s.goTo i st).latch = s.latch := by
  simp [State.latch]

@[simp] theorem State.latch_setLane (s : State) (p : Port) (l : Lane) : (s.setLane p l).latch = s.latch := by
  simp [State.latch]

@[simp] theorem State.latch_raiseFatal (s : State) (p : Port) (code : BitVec 8) :
    (s.raiseFatal p code).latch = (true, code) := by
  simp [State.latch, State.raiseFatal]

theorem State.latch_ringPut {s u : State} {w : Word} {v : List Byte} (h : s.ringPut w v = some u) :
    u.latch = s.latch := by
  rw [(s.ringPut_frame u w v h).1]
  rfl

theorem State.latch_ringWrite {s u : State} {off : Nat} {v : List Byte} (h : s.ringWrite off v = some u) :
    u.latch = s.latch := by
  obtain ⟨-, rfl⟩ := (s.ringWrite_eq_some u off v).1 h
  rfl

theorem State.latch_stgWrite {s u : State} {j : StgBuf} {off : Nat} {v : List Byte} (h : s.stgWrite j off v = some u) :
    u.latch = s.latch := by
  obtain ⟨-, rfl⟩ := (s.stgWrite_eq_some u j off v).1 h
  simp [State.latch]

theorem S24Frame.latch_eq {s t : State} (h : S24Frame s t) : t.latch = s.latch := by
  rw [h.eq]
  rfl

/-! The commands of several outcomes that leave the latch in each. -/

theorem latch_of_execPush {src len : Word} {s t : State} (h : execPush src len s = .next t) : t.latch = s.latch := by
  rcases execPush_next h with ⟨-, -, -, rfl⟩ | ⟨-, -, -, rfl⟩ | ⟨w, n, u, -, -, hput, rfl⟩ | ⟨w, n, -, rfl⟩
  case inr.inr.inl => simpa using State.latch_ringPut hput
  all_goals rfl

theorem latch_of_execPop {dst len : Word} {s t : State} (h : execPop dst len s = .next t) : t.latch = s.latch := by
  rcases execPop_next h with ⟨-, -, -, rfl⟩ | ⟨-, -, -, rfl⟩ | ⟨r, n, v, -, -, -, rfl⟩ | ⟨r, n, -, rfl⟩ <;> rfl

theorem latch_of_execWrgn {needed : Word} {s t : State} (h : execWrgn needed s = .next t) : t.latch = s.latch := by
  obtain ⟨-, -, ⟨-, rfl⟩ | ⟨-, rfl⟩⟩ := execWrgn_next h <;> rfl

theorem latch_of_execRrgn {needed : Word} {s t : State} (h : execRrgn needed s = .next t) : t.latch = s.latch := by
  obtain ⟨-, -, ⟨-, rfl⟩ | ⟨-, rfl⟩⟩ := execRrgn_next h <;> rfl

theorem latch_of_snapshot {i : Instr} {v : Word} {s t : State} (h : snapshot i v s = .next t) :
    t.latch = s.latch := by
  obtain ⟨-, -, rfl⟩ := snapshot_next h
  simp

/-- A converting push leaves the latch if its conversion does. -/
theorem latch_of_convertPush {k : Converting} {s t : State} (hport : k.instr.port = .producer)
    (hconvert : ∀ n, (k.convert n s).1.latch = s.latch) (h : convertPush k s = .next t) : t.latch = s.latch := by
  rcases convertPush_next hport h with ⟨-, -, -, rfl⟩ | ⟨-, -, -, rfl⟩ | ⟨w, n, u, -, -, hstg, rfl⟩ |
    ⟨w, n, out, u, -, -, hput, rfl⟩ | ⟨w, n, -, rfl⟩
  case inr.inr.inl => simpa using (State.latch_stgWrite hstg).trans (hconvert n)
  case inr.inr.inr.inl => simpa using State.latch_ringPut hput
  all_goals simp [State.latch]

theorem latch_of_execS24hint {p : Port} {hint : S24Hint} {s t : State} (h : execS24hint p hint s = .next t) :
    t.latch = s.latch := by
  obtain ⟨-, ⟨-, rfl⟩ | ⟨-, -, rfl⟩⟩ := execS24hint_next h <;> simp [State.latch, State.applyHint]

theorem latch_of_execGenter {p : DataPort} {s t : State} (h : execGenter p s = .next t) : t.latch = s.latch := by
  rcases execGenter_next h with ⟨-, -, -, rfl⟩ | ⟨-, -, -, rfl⟩ | ⟨-, rfl⟩ | ⟨-, rfl⟩ | ⟨-, rfl⟩ | ⟨-, rfl⟩ <;>
    simp [State.latch]

theorem latch_of_execGexit {p : DataPort} {s t : State} (h : execGexit p s = .next t) : t.latch = s.latch := by
  obtain ⟨-, -, rfl⟩ := execGexit_next h
  simp [State.ite_decUsers, State.latch]

theorem latch_of_execRenter {s t : State} (h : execRenter s = .next t) : t.latch = s.latch := by
  rcases execRenter_next h with ⟨-, -, -, rfl⟩ | ⟨-, -, rfl⟩ | ⟨-, -, rfl⟩ <;> rfl

theorem latch_of_execSetfmt {f : Format} {s t : State} (h : execSetfmt f s = .next t) : t.latch = s.latch := by
  rcases execSetfmt_next h with ⟨-, -, x, -, rfl⟩ | ⟨pending, -, x, -, rfl⟩ | ⟨-, rfl⟩ <;> rfl

/-! The one command that raises the fatal condition. -/

/-- A COPYF or COPYW whose ranges overlap (R144, R281). -/
def OverlappingCopy (i : Instr) : Prop :=
  ∃ p dst src n, overlap dst src n = true ∧ (i = .copyf p dst src n ∨ i = .copyw p dst src n)

/-- A copy raises the fatal condition at its first step if its ranges overlap, and at no other. -/
theorem latch_of_copyCommand {i : Instr} {dst src n : Word} {moved : State → Memory} {s t : State}
    (h : copyCommand i dst src n moved s = .next t) :
    t.latch = s.latch ∨ (overlap dst src n = true ∧ s.portFree i.port ∧ t.latch = (true, copyOverlapCode)) := by
  rcases copyCommand_next h with ⟨hfree, hover, rfl⟩ | ⟨-, -, rfl⟩ | ⟨-, -, rfl⟩ | ⟨-, rfl⟩
  case inl => exact .inr ⟨hover, hfree, s.latch_raiseFatal _ _⟩
  all_goals exact .inl (by simp [State.latch])

/-- A command's next labelled step leaves the latch, unless it is the first step of an overlapping copy. -/
theorem latch_of_exec {i : Instr} {s t : State} (h : exec i s = .next t) :
    t.latch = s.latch ∨ (OverlappingCopy i ∧ s.portFree i.port ∧ t.latch = (true, copyOverlapCode)) := by
  cases i with
  | copyf p dst src n =>
    rw [exec, execCopyf] at h
    exact (latch_of_copyCommand h).imp_right fun ⟨hover, hraise⟩ => ⟨⟨p, dst, src, n, hover, .inl rfl⟩, hraise⟩
  | copyw p dst src n =>
    rw [exec, execCopyw] at h
    exact (latch_of_copyCommand h).imp_right fun ⟨hover, hraise⟩ => ⟨⟨p, dst, src, n, hover, .inr rfl⟩, hraise⟩
  | push src len => exact .inl (latch_of_execPush h)
  | pop dst len => exact .inl (latch_of_execPop h)
  | wrgn needed => exact .inl (latch_of_execWrgn h)
  | wcommit written => obtain ⟨-, -, g, -, -, -, rfl⟩ := execWcommit_next h; exact .inl rfl
  | rrgn needed => exact .inl (latch_of_execRrgn h)
  | radv bytes => obtain ⟨-, -, g, -, -, rfl⟩ := execRadv_next h; exact .inl rfl
  | avail p => exact .inl (latch_of_snapshot h)
  | free p => exact .inl (latch_of_snapshot h)
  | resize capacity silenceByte => obtain ⟨-, -, rfl⟩ := underExcl_next h; exact .inl rfl
  | clear => obtain ⟨-, -, rfl⟩ := underExcl_next h; exact .inl rfl
  | push24 src len =>
    exact .inl (latch_of_convertPush (k := push24Converting src len) rfl
      (fun n => (convert24_frame src n s).latch_eq) h)
  | push16 src len => exact .inl (latch_of_convertPush (k := push16Converting src len) rfl (fun _ => rfl) h)
  | pushdsd src len channels rev swap =>
    exact .inl (latch_of_convertPush (k := pushdsdConverting src len channels rev swap) rfl (fun _ => rfl) h)
  | s24hint p hint => exact .inl (latch_of_execS24hint h)
  | genter p => exact .inl (latch_of_execGenter h)
  | gexit p => exact .inl (latch_of_execGexit h)
  | renter => exact .inl (latch_of_execRenter h)
  | rexit => obtain ⟨-, -, rfl⟩ := underExcl_next h; exact .inl rfl
  | setfmt f => exact .inl (latch_of_execSetfmt h)
  | rdreg p reg => obtain ⟨-, rfl⟩ := execRdreg_next h; exact .inl (by simp)

/-! A step of the machine. -/

/-- A window access is no command, and leaves the latch (R283). -/
theorem latch_of_winWrite {off : Word} {v : List Byte} {s t : State} (h : winWrite off v s = .next t) :
    t.latch = s.latch := by
  obtain ⟨-, -, u, hwrite, rfl⟩ := winWrite_next h
  exact (State.latch_ringWrite hwrite : u.latch = s.latch)

/-- Neither the schedule nor the turn's choice is part of a lane. -/
theorem State.lane_with_schedule_choice (s : State) (es : List Event) (c : Nat) (p : Port) :
    State.lane { s with schedule := es, choice := c } p = s.lane p := by
  cases p <;> rfl

theorem State.nextCommand_of_decode {s : State} {p : Port} {c : Nat} {es : List Event} {d : Descriptor}
    {ds : List Descriptor} {i : Instr} (hschedule : s.schedule = .turn p c :: es)
    (hinflight : (s.lane p).inflight = none) (hstream : (s.lane p).stream = d :: ds) (hfatal : s.fatal = false)
    (hdecode : decode s.cfg p d = .ok i) : s.nextCommand = some i := by
  simp [State.nextCommand, hschedule, hinflight, hstream, hfatal, hdecode, Except.toOption]

/-- A port's turn leaves the latch, unless it takes an overlapping copy with the latch unset: a copy in flight has made
its first step, and while the latch is set no descriptor is decoded (R285). -/
theorem latch_of_turn {p : Port} {s t : State} (hport : ∀ c, (s.lane p).inflight = some c → c.instr.port = p)
    (h : turn p s = .next t) :
    t.latch = s.latch ∨
      (s.fatal = false ∧ t.latch = (true, copyOverlapCode) ∧ ∃ d ds i, (s.lane p).inflight = none ∧
        (s.lane p).stream = d :: ds ∧ decode s.cfg p d = .ok i ∧ OverlappingCopy i) := by
  rcases turn_next h with ⟨c, hc, hexec⟩ | ⟨-, -, rfl⟩ | ⟨d, ds, -, -, -, rfl⟩ | ⟨d, ds, e, -, -, -, -, rfl⟩ |
    ⟨d, ds, i, hnone, hstream, hfatal, hdecode, hexec⟩
  · rcases latch_of_exec hexec with hkeep | ⟨-, hfree, -⟩
    · exact .inl hkeep
    · rw [State.portFree, hport c hc, hc] at hfree
      cases hfree
  · exact .inl rfl
  · exact .inl (by simp)
  · exact .inl (by simp)
  · rcases latch_of_exec hexec with hkeep | ⟨hcopy, -, hraise⟩
    · exact .inl (by simpa using hkeep)
    · exact .inr ⟨hfatal, hraise, d, ds, i, hnone, hstream, hdecode, hcopy⟩

/-- All that one step can do to the latch: reset clears it, an overlapping copy sets it, anything else leaves it. -/
theorem latch_of_step {s t : State} (hlanes : s.LanesInv) (h : step s = .next t) :
    (s.resetNext ∧ t.latch = (false, 0)) ∨ t.latch = s.latch ∨
      (s.fatal = false ∧ t.latch = (true, copyOverlapCode) ∧ ∃ i, OverlappingCopy i ∧ s.nextCommand = some i) := by
  obtain ⟨-, rfl⟩ | ⟨e, es, hschedule, hhandle⟩ := step_next h
  · exact .inr (.inl rfl)
  cases e with
  | turn p c =>
    right
    have hlane := s.lane_with_schedule_choice es c p
    have hport : ∀ cmd, (State.lane { s with schedule := es, choice := c } p).inflight = some cmd →
        cmd.instr.port = p := fun cmd hcmd => (hlanes p cmd (hlane ▸ hcmd)).1
    refine (latch_of_turn hport hhandle).imp_right ?_
    rintro ⟨hfatal, hraise, d, ds, i, hnone, hstream, hdecode, hcopy⟩
    rw [hlane] at hnone hstream
    exact ⟨hfatal, hraise, i, hcopy, State.nextCommand_of_decode hschedule hnone hstream hfatal hdecode⟩
  | winWrite off v =>
    have hkeep := latch_of_winWrite hhandle
    exact .inr (.inl hkeep)
  | winRead off n =>
    obtain ⟨-, -, v, -, rfl⟩ := winRead_next hhandle
    exact .inr (.inl rfl)
  | hostStore addr v =>
    obtain ⟨-, rfl⟩ := hostStore_next hhandle
    exact .inr (.inl rfl)
  | reset landed =>
    cases hhandle
    exact .inl ⟨⟨landed, es, hschedule⟩, rfl⟩

/-- Settles O49: of the three things a step can do to the latch, only a reset leaves it unset once set, and only an
overlapping copy sets it. -/
theorem latchSetByOverlapClearedByReset : Obligations.LatchSetByOverlapClearedByReset := by
  intro s t hlanes hstep
  rcases latch_of_step hlanes hstep with ⟨hreset, hclear⟩ | hkeep | ⟨hunset, hraise, i, hcopy, hnext⟩
  case inl =>
    obtain ⟨hfatal, -⟩ := Prod.mk_inj.1 hclear
    exact ⟨fun _ => .inl hreset, fun _ hset => by simp [hfatal] at hset⟩
  case inr.inl =>
    obtain ⟨hfatal, hcode⟩ := State.latch_eq_iff.1 hkeep
    exact ⟨fun hset => .inr ⟨hfatal.trans hset, hcode⟩, fun hunset hset => by simp [hfatal, hunset] at hset⟩
  case inr.inr =>
    obtain ⟨-, hcode⟩ := Prod.mk_inj.1 hraise
    obtain ⟨p, dst, src, n, hover, hi⟩ := hcopy
    refine ⟨fun hset => by simp [hunset] at hset, fun _ _ => ⟨hcode, p, dst, src, n, hover, ?_⟩⟩
    rw [hnext]
    exact hi.imp (congrArg some) (congrArg some)

end Sys2Proof.Machine
end

section
/-! PROOF. The two identities of R122 (spec/30_encoding.md R111 to R124): a descriptor from its fields, what operand
assembly makes of them row by row, and the worked encodings of R132. -/

namespace Sys2Proof

/-! Encode, then decode. -/

/-- Every command's descriptor carries its own row's opcode and no bit outside its row's fields. -/
theorem encode_own_row (i : Instr) : Laws.EncodesOwnRow.Statement i := by
  cases i with
  | copyf p dst src n => exact Laws.EncodesOwnRow.copyf ..
  | copyw p dst src n => exact Laws.EncodesOwnRow.copyw ..
  | push src len => exact Laws.EncodesOwnRow.push ..
  | pop dst len => exact Laws.EncodesOwnRow.pop ..
  | wrgn needed => exact Laws.EncodesOwnRow.wrgn ..
  | wcommit written => exact Laws.EncodesOwnRow.wcommit ..
  | rrgn needed => exact Laws.EncodesOwnRow.rrgn ..
  | radv bytes => exact Laws.EncodesOwnRow.radv ..
  | avail p => exact Laws.EncodesOwnRow.avail ..
  | free p => exact Laws.EncodesOwnRow.free ..
  | resize capacity silenceByte => exact Laws.EncodesOwnRow.resize ..
  | clear => exact Laws.EncodesOwnRow.clear
  | push24 src len => exact Laws.EncodesOwnRow.push24 ..
  | push16 src len => exact Laws.EncodesOwnRow.push16 ..
  | pushdsd src len channels rev swap => exact Laws.EncodesOwnRow.pushdsd ..
  | s24hint p hint => exact Laws.EncodesOwnRow.s24hint ..
  | genter p => exact Laws.EncodesOwnRow.genter ..
  | gexit p => exact Laws.EncodesOwnRow.gexit ..
  | renter => exact Laws.EncodesOwnRow.renter
  | rexit => exact Laws.EncodesOwnRow.rexit
  | setfmt f => exact Laws.EncodesOwnRow.setfmt ..
  | rdreg p reg => exact Laws.EncodesOwnRow.rdreg ..

/-- The port a well-formed command carries is one its row accepts (R114, R123). -/
theorem Instr.port_mem_ports {cfg : Config} {i : Instr} (h : i.wf cfg = true) : i.port ∈ i.mnemonic.ports := by
  cases i with
  | copyf p | copyw p | avail p | free p | rdreg p | genter p | gexit p =>
    cases p <;> simp [Instr.port, Instr.mnemonic, Mnemonic.ports, DataPort.port]
  | s24hint p hint =>
    have hp : p ≠ .consumer := by simpa [Instr.wf] using h
    cases p with
    | producer | config => simp [Instr.port, Instr.mnemonic, Mnemonic.ports]
    | consumer => exact absurd rfl hp
  | _ => exact List.mem_singleton_self _

/-- A register is the one its own number names (R60). -/
theorem regNumOf_code (reg : RegNum) : regNumOf reg.code = some reg := by cases reg <;> decide

theorem regNumOf_eq_some {b : Byte} {reg : RegNum} (h : regNumOf b = some reg) : reg.code = b := by
  simpa using List.find?_some h

/-- The flags of a SETFMT, read back from its packed `MOD` (R112). -/
theorem getLsbD_flagBits : ∀ a b c d e g : Bool, ∀ i < 6,
    ((0 : BitVec 2) ++ bit a ++ bit b ++ bit c ++ bit d ++ bit e ++ bit g : Byte).getLsbD i =
      [g, e, d, c, b, a].getD i false := by decide

theorem Format.getLsbD_flags (f : Format) {i : Nat} (h : i < 6) : f.flags.getLsbD i =
    [f.dsd, f.pack24, f.up16to32, f.dsdBitrev, f.dsdBswap, f.lowbitrate].getD i false :=
  getLsbD_flagBits _ _ _ _ _ _ i h

/-- The three bytes of SETFMT's word `B` (R112). -/
theorem extract_formatWord (out inn ch : Byte) :
    ((0 : Byte) ++ out ++ inn ++ ch : Word).extractLsb' 0 8 = ch ∧
    ((0 : Byte) ++ out ++ inn ++ ch : Word).extractLsb' 8 8 = inn ∧
    ((0 : Byte) ++ out ++ inn ++ ch : Word).extractLsb' 16 8 = out :=
  ⟨Laws.imma_packW0 0 out inn ch 0 0 0, Laws.immb_packW0 0 out inn ch 0 0 0, Laws.mod_packW0 0 out inn ch 0 0 0⟩

/-- Operand assembly gives a well-formed command back from its descriptor (R112). -/
theorem assemble_encode {cfg : Config} {i : Instr} (h : i.wf cfg = true) :
    i.mnemonic.assemble cfg i.port (encode i) = some i := by
  cases i with
  | resize capacity silenceByte =>
    have hcap : capacity.toNat ≤ 2 ^ cfg.log2SizeMax := by simpa [Instr.wf] using h
    simp [encode, Instr.mnemonic, Mnemonic.assemble, hcap, Laws.imma_packW0]
  | pushdsd src len channels rev swap =>
    have hch : channels ≠ 0 := by simpa [Instr.wf] using h
    simp only [encode, Instr.mnemonic, Mnemonic.assemble, Laws.imma_packW0, Laws.mod_packW0, if_neg hch]
    cases rev <;> cases swap <;> rfl
  | s24hint p hint =>
    simp only [encode, Instr.mnemonic, Mnemonic.assemble, Laws.imma_packW0]
    cases hint <;> rfl
  | genter p | gexit p => cases p <;> rfl
  | setfmt f =>
    obtain ⟨hch, hin, hout⟩ := extract_formatWord f.bytesOut f.bytesIn f.channels
    have hflag : ∀ k < 6, (encode (.setfmt f)).mod.getLsbD k =
        [f.dsd, f.pack24, f.up16to32, f.dsdBitrev, f.dsdBswap, f.lowbitrate].getD k false := fun k hk => by
      rw [← f.getLsbD_flags hk]
      exact congrArg (BitVec.getLsbD · k) (Laws.mod_packW0 ..)
    simp only [Instr.mnemonic, Mnemonic.assemble, Descriptor.format]
    rw [hflag 0 (by omega), hflag 1 (by omega), hflag 2 (by omega), hflag 3 (by omega), hflag 4 (by omega),
      hflag 5 (by omega)]
    simp only [encode, hch, hin, hout]
    rfl
  | rdreg p reg => simp [encode, Instr.mnemonic, Mnemonic.assemble, Laws.imma_packW0, regNumOf_code, Instr.port]
  | _ => rfl

/-- Settles O1: the row is found by its opcode, the port is on its list, no bit is left over, and the operands are
assembled back. -/
theorem decodeEncodeRoundTrip : Obligations.DecodeEncodeRoundTrip := by
  intro cfg i hwf
  obtain ⟨hopc, hunused⟩ := encode_own_row i
  simp only [decode, hopc, mnemonicOf_opcode, if_pos (Instr.port_mem_ports hwf), if_pos hunused, assemble_encode hwf]

/-! Decode, then encode. -/

/-- A descriptor cut down to the fields of its row. -/
def Descriptor.masked (d : Descriptor) (op : Byte) (l : Layout) : Descriptor :=
  ⟨packW0 op (d.mod &&& l.mod) 0 (d.imma &&& l.imma), d.w1 &&& l.a, d.w2 &&& l.b, d.w3 &&& l.c⟩

/-- A word is its four fields (R111). -/
theorem packW0_fields (d : Descriptor) : packW0 d.opc d.mod d.immb d.imma = d.w0 := by
  apply BitVec.eq_of_toNat_eq
  have h0 := d.w0.isLt
  simp only [packW0, Machine.toNat_append_eq_add, Descriptor.opc, Descriptor.mod, Descriptor.immb, Descriptor.imma,
    BitVec.extractLsb'_toNat, Nat.shiftRight_eq_div_pow]
  omega

/-- A value with no bit outside a mask is what the mask leaves of it. -/
theorem and_eq_self_of_and_not_eq_zero {w : Nat} {x m : BitVec w} (h : x &&& ~~~m = 0) : x &&& m = x := by
  ext i hi
  have hbit : (x &&& ~~~m)[i] = false := by simp [h]
  revert hbit
  cases hx : x[i] <;> cases hm : m[i] <;> simp [hx, hm]

/-- R122: with every unused bit 0, a descriptor is no more than its row's fields. -/
theorem Descriptor.masked_eq {d : Descriptor} {l : Layout} (h : d.unusedZero l = true) : d.masked d.opc l = d := by
  simp only [Descriptor.unusedZero, Bool.and_eq_true, decide_eq_true_eq] at h
  obtain ⟨⟨⟨⟨⟨himmb, hmod⟩, himma⟩, ha⟩, hb⟩, hc⟩ := h
  have h0 := packW0_fields d
  rw [himmb] at h0
  rw [Descriptor.masked, and_eq_self_of_and_not_eq_zero hmod, and_eq_self_of_and_not_eq_zero himma,
    and_eq_self_of_and_not_eq_zero ha, and_eq_self_of_and_not_eq_zero hb, and_eq_self_of_and_not_eq_zero hc, h0]

/-- PUSHDSD's two flags are `MOD` without its unused bits. -/
theorem optionBits_eq (md : Byte) :
    ((0 : BitVec 6) ++ bit (md.getLsbD 1) ++ bit (md.getLsbD 0) : Byte) = md &&& 0x03 := by
  revert md
  decide

theorem flags_format (d : Descriptor) : d.format.flags = d.mod &&& 0x3F := by
  have hall : ∀ md : Byte, ((0 : BitVec 2) ++ bit (md.getLsbD 5) ++ bit (md.getLsbD 4) ++ bit (md.getLsbD 3) ++
      bit (md.getLsbD 2) ++ bit (md.getLsbD 1) ++ bit (md.getLsbD 0) : Byte) = md &&& 0x3F := by decide
  exact hall d.mod

/-- SETFMT's word `B` without its unused byte. -/
theorem formatWord_extract (w : Word) :
    ((0 : Byte) ++ w.extractLsb' 16 8 ++ w.extractLsb' 8 8 ++ w.extractLsb' 0 8 : Word) = w &&& 0x00FFFFFF := by
  have hmask : (w &&& 0x00FFFFFF).toNat = w.toNat % 2 ^ 24 := by
    rw [BitVec.toNat_and]
    exact Nat.and_two_pow_sub_one_eq_mod _ 24
  apply BitVec.eq_of_toNat_eq
  rw [hmask]
  simp only [Machine.toNat_append_eq_add, BitVec.extractLsb'_toNat, Nat.shiftRight_eq_div_pow, BitVec.ofNat_eq_ofNat,
    BitVec.toNat_ofNat]
  omega

/-- A hint's code without the unused bits of `IMMA`. -/
theorem hintOf_eq_some {b : Byte} {hint : S24Hint} (h : hintOf (b.extractLsb' 0 2) = some hint) :
    ((0 : BitVec 6) ++ hint.code : Byte) = b &&& 0x03 := by
  have hall : ∀ b : Byte, ∀ hint ∈ hintOf (b.extractLsb' 0 2), ((0 : BitVec 6) ++ hint.code : Byte) = b &&& 0x03 := by
    decide
  exact hall b hint h

/-- Operand assembly answers a well-formed command of its row and port, whose descriptor is the row's fields of the one
read (R112, R123, R124). -/
theorem of_assemble_eq_some {m : Mnemonic} {cfg : Config} {p : Port} {d : Descriptor} {i : Instr}
    (hp : p ∈ m.ports) (h : m.assemble cfg p d = some i) :
    encode i = d.masked m.opcode m.layout ∧ i.port = p ∧ i.wf cfg = true := by
  have hword : ∀ w : Word, w &&& 4294967295#32 = w := fun w => BitVec.and_allOnes
  have hbyte : ∀ b : Byte, b &&& 255#8 = b := fun b => BitVec.and_allOnes
  cases m with
  | copyf | copyw | push | pop | wrgn | wcommit | rrgn | radv | avail | free | clear | push24 | push16 | renter | rexit =>
    cases h
    refine ⟨?_, ?_, rfl⟩
    · simp [encode, Instr.mnemonic, Descriptor.masked, Mnemonic.layout, hword]
    · simp_all [Mnemonic.ports, Instr.port]
  | resize =>
    obtain ⟨hcap, hi⟩ := Option.ite_none_right_eq_some.1 h
    cases hi
    refine ⟨?_, (List.mem_singleton.1 hp).symm, decide_eq_true hcap⟩
    simp [encode, Instr.mnemonic, Descriptor.masked, Mnemonic.layout, hword, hbyte]
  | pushdsd =>
    obtain ⟨hch, hi⟩ := Option.ite_none_left_eq_some.1 h
    cases hi
    refine ⟨?_, (List.mem_singleton.1 hp).symm, decide_eq_true hch⟩
    simp only [encode, Instr.mnemonic, optionBits_eq]
    simp [Descriptor.masked, Mnemonic.layout, hword, hbyte]
  | s24hint =>
    obtain ⟨hint, hhint, rfl⟩ := Option.map_eq_some_iff.1 h
    have hpc : p ≠ .consumer := by rintro rfl; simp [Mnemonic.ports] at hp
    refine ⟨?_, rfl, decide_eq_true hpc⟩
    simp only [encode, Instr.mnemonic, hintOf_eq_some hhint]
    simp [Descriptor.masked, Mnemonic.layout]
  | genter | gexit =>
    obtain ⟨q, hq, rfl⟩ := Option.map_eq_some_iff.1 h
    refine ⟨?_, ?_, rfl⟩
    · simp [encode, Instr.mnemonic, Descriptor.masked, Mnemonic.layout]
    · cases p <;> cases hq <;> rfl
  | setfmt =>
    cases h
    refine ⟨?_, (List.mem_singleton.1 hp).symm, rfl⟩
    simp only [encode, Instr.mnemonic, flags_format]
    simp only [Descriptor.format, formatWord_extract]
    simp [Descriptor.masked, Mnemonic.layout, hword]
  | rdreg =>
    obtain ⟨reg, hreg, rfl⟩ := Option.map_eq_some_iff.1 h
    refine ⟨?_, rfl, rfl⟩
    simp only [encode, Instr.mnemonic, regNumOf_eq_some hreg]
    simp [Descriptor.masked, Mnemonic.layout, hbyte]

/-- Settles O2: what is assembled is the masked descriptor's command, and with every unused bit 0 the mask takes
nothing away. -/
theorem encodeDecodeRoundTrip : Obligations.EncodeDecodeRoundTrip := by
  intro cfg p d i hdecode
  obtain ⟨m, hm, hp, hunused, hassemble⟩ := Machine.decode_port hdecode
  obtain ⟨hencode, hport, hwf⟩ := of_assemble_eq_some hp hassemble
  rw [(mnemonicOf_eq_some_iff _ _).1 hm, Descriptor.masked_eq hunused] at hencode
  exact ⟨hencode, hport, hwf⟩

/-- Settles O9: each worked word is decoded by evaluation. -/
theorem workedEncodingsDecode : Obligations.WorkedEncodingsDecode := by
  unfold Obligations.WorkedEncodingsDecode
  and_intros <;> rfl

end Sys2Proof
end

section
/-! PROOF. A port's turn and the bookkeeping of the ports (spec/60_exceptions.md R283, R285, R290): which command a
turn makes a step of, what the latch answers, and what answering and going on write. -/

namespace Sys2Proof.Machine

/-- Settles O8: each of the two writes its port's lane alone. -/
theorem portBookkeeping : Obligations.PortBookkeeping := by
  intro s i p r st
  refine ⟨?finish, ?goTo⟩
  case finish => cases p <;> rfl
  case goTo =>
    rw [State.goTo]
    cases i.port <;> rfl

/-- With a command in flight, a port's turn is that command's next labelled step. -/
theorem turn_of_inflight {p : Port} {s : State} {c : Command} (h : (s.lane p).inflight = some c) :
    turn p s = exec c.instr s := by
  simp only [turn, h]

/-- With nothing in flight, a port's turn takes its next descriptor. -/
theorem turn_of_stream {p : Port} {s : State} {d : Descriptor} {ds : List Descriptor} {r : Option Response}
    (h : s.lane p = ⟨d :: ds, none, r⟩) : turn p s = takeCommand p d (s.setLane p ⟨ds, none, none⟩) := by
  simp only [turn, h]

/-- The latch unset, a descriptor taken that decodes is its command's first step. -/
theorem takeCommand_of_decode {p : Port} {s : State} {d : Descriptor} {i : Instr} (hfatal : s.fatal = false)
    (hdecode : decode s.cfg p d = .ok i) : takeCommand p d s = exec i s := by
  simp only [takeCommand, hfatal, Bool.false_eq_true, ↓reduceIte, hdecode]

/-- Settles O7: a descriptor taken runs its command, a command in flight goes on. -/
theorem stepRunsDecodedCommand : Obligations.StepRunsDecodedCommand := by
  refine ⟨fun s p c es d ds r i hschedule hlane hfatal hdecode => ?taken,
    fun s p c es cmd hschedule hcmd => ?inflight⟩
  case taken =>
    rw [step_of_turn hschedule, turn_of_stream ((s.lane_with_schedule_choice es c p).trans hlane)]
    exact takeCommand_of_decode (by rwa [State.setLane_fatal]) (by rwa [State.setLane_cfg])
  case inflight =>
    rw [step_of_turn hschedule]
    exact turn_of_inflight (by rwa [State.lane_with_schedule_choice])

/-- Settles O48: the latch is asked before the descriptor is decoded. -/
theorem latchAnswersEveryCommand : Obligations.LatchAnswersEveryCommand := by
  intro s p c es d ds r hschedule hlane hfatal
  rw [step_of_turn hschedule, turn_of_stream ((s.lane_with_schedule_choice es c p).trans hlane)]
  simp only [takeCommand, State.setLane_fatal, hfatal, ↓reduceIte, State.setLane_finish, State.setLane_fatalCode,
    fatalResponse, BitVec.ofNat_toNat]

end Sys2Proof.Machine
end

section
/-! PROOF. The copy engine (spec/40_copy.md R140 to R148): the offsets the fixed-timing schedule covers, the storage it
leaves, and the labelled steps of COPYF and COPYW. -/

namespace Sys2Proof.Machine

/-! The offsets a list of moves covers (R142). -/

/-- Some move of the list covers offset `k`. -/
def Covers (moves : List Move) (k : Nat) : Prop := ∃ m ∈ moves, m.off ≤ k ∧ k < m.off + m.width

theorem covers_append {a b : List Move} {k : Nat} : Covers (a ++ b) k ↔ Covers a k ∨ Covers b k := by
  simp [Covers, or_and_right, exists_or]

theorem covers_cons {m : Move} {moves : List Move} {k : Nat} :
    Covers (m :: moves) k ↔ (m.off ≤ k ∧ k < m.off + m.width) ∨ Covers moves k := by
  simp [Covers]

theorem not_covers_nil {k : Nat} : ¬ Covers [] k := by simp [Covers]

/-- The four moves of a block cover its 128 bytes. -/
theorem covers_blockMoves {i k : Nat} : Covers (blockMoves i) k ↔ 128 * i ≤ k ∧ k < 128 * (i + 1) := by
  simp only [blockMoves, covers_cons, not_covers_nil, or_false]
  omega

/-- The blocks of the main loop cover their bytes. -/
theorem covers_blocks {q k : Nat} : Covers ((List.range q).flatMap blockMoves) k ↔ k < 128 * q := by
  induction q with
  | zero => simp [Covers]
  | succ q ih =>
    rw [List.range_succ, List.flatMap_append, covers_append, ih, List.flatMap_singleton, covers_blockMoves]
    omega

/-- The tail's moves cover what the main loop leaves of a copy, which is less than a block. -/
theorem covers_tailMoves {t n k : Nat} (ht : t ≤ n) (hn : n < t + 128) :
    Covers (tailMoves t n) k ↔ t ≤ k ∧ k < n := by
  unfold tailMoves bucketOf
  split_ifs <;> simp only [covers_cons, not_covers_nil, or_false, false_iff] <;> omega

/-- The schedule covers exactly the offsets below `n` (R142). -/
theorem covers_copySchedule {n k : Nat} : Covers (copySchedule n) k ↔ k < n := by
  have hblocks : 128 * (n / copyBlock) ≤ n ∧ n < 128 * (n / copyBlock) + 128 := by
    simp only [copyBlock]
    omega
  rw [copySchedule, covers_append, covers_blocks]
  have htail := covers_tailMoves (k := k) hblocks.1 hblocks.2
  simp only [copyBlock] at htail hblocks ⊢
  rw [htail]
  omega

/-- Settles O12. -/
theorem scheduleCoversExactly : Obligations.ScheduleCoversExactly := fun _ _ => covers_copySchedule.symm

/-! The storage the schedule leaves (R140). -/

/-- A move within the copy stores the source bytes at its offsets and no other byte. -/
theorem memGet_storeMove {d : Byte} {dst : Nat} {v : List Byte} {m : Memory} {mv : Move}
    (h : mv.off + mv.width ≤ v.length) (a : Nat) :
    memGet d (storeMove d dst v m mv) a =
      if dst + mv.off ≤ a ∧ a < dst + mv.off + mv.width then v.getD (a - dst) 0 else memGet d m a := by
  have hlen : ((v.drop mv.off).take mv.width).length = mv.width :=
    List.length_take_of_le (by rw [List.length_drop]; omega)
  rw [storeMove, memGet_memWrite, hlen]
  split
  case isFalse => rfl
  case isTrue hin =>
    rw [List.getD_eq_getElem?_getD, List.getElem?_take_of_lt (by omega), List.getElem?_drop,
      ← List.getD_eq_getElem?_getD]
    congr 1
    omega

/-- Moves within the copy leave the source bytes where they cover, and every other byte as it was. -/
theorem memGet_foldl_storeMove {d : Byte} {dst : Nat} {v : List Byte} {moves : List Move}
    (h : ∀ mv ∈ moves, mv.off + mv.width ≤ v.length) (m : Memory) (a : Nat) :
    (dst ≤ a → Covers moves (a - dst) → memGet d (moves.foldl (storeMove d dst v) m) a = v.getD (a - dst) 0) ∧
    (a < dst ∨ ¬ Covers moves (a - dst) → memGet d (moves.foldl (storeMove d dst v) m) a = memGet d m a) := by
  induction moves generalizing m with
  | nil => exact ⟨fun _ hc => absurd hc not_covers_nil, fun _ => rfl⟩
  | cons mv moves ih =>
    obtain ⟨hin, hout⟩ := ih (fun x hx => h x (List.mem_cons_of_mem mv hx)) (storeMove d dst v m mv)
    have hstore := memGet_storeMove (d := d) (dst := dst) (m := m) (h mv List.mem_cons_self) a
    rw [covers_cons, List.foldl_cons]
    refine ⟨fun ha hc => ?_, fun hc => ?_⟩
    · by_cases hrest : Covers moves (a - dst)
      · exact hin ha hrest
      · rw [hout (.inr hrest), hstore, if_pos (by have := hc.resolve_right hrest; omega)]
    · rw [hout (hc.imp_right fun hn => fun hr => hn (.inr hr)), hstore, if_neg]
      rintro ⟨hlow, hhigh⟩
      rcases hc with hlt | hn
      · omega
      · exact hn (.inl (by omega))

theorem width_pos_of_mem_blockMoves (i : Nat) : ∀ mv ∈ blockMoves i, 0 < mv.width := by simp [blockMoves]

theorem width_pos_of_mem_tailMoves (t n : Nat) : ∀ mv ∈ tailMoves t n, 0 < mv.width := by
  unfold tailMoves
  cases bucketOf (n - t) <;> simp

theorem width_pos_of_mem_copySchedule {n : Nat} {mv : Move} (h : mv ∈ copySchedule n) : 0 < mv.width := by
  rcases List.mem_append.1 h with hblock | htail
  · obtain ⟨i, -, hmv⟩ := List.mem_flatMap.1 hblock
    exact width_pos_of_mem_blockMoves i mv hmv
  · exact width_pos_of_mem_tailMoves _ _ mv htail

/-- No move of the schedule passes the end of the copy. -/
theorem copySchedule_within {n : Nat} {mv : Move} (h : mv ∈ copySchedule n) : mv.off + mv.width ≤ n := by
  have hw := width_pos_of_mem_copySchedule h
  have hlast : Covers (copySchedule n) (mv.off + mv.width - 1) := ⟨mv, h, by omega, by omega⟩
  have := covers_copySchedule.1 hlast
  omega

/-- The fixed-timing copy leaves the bytes one plain write leaves (R140). -/
theorem memGet_copyFixed (d : Byte) (m : Memory) (dst : Nat) (v : List Byte) (a : Nat) :
    memGet d (copyFixed d m dst v) a = memGet d (memWrite d m dst v) a := by
  obtain ⟨hin, hout⟩ :=
    memGet_foldl_storeMove (d := d) (dst := dst) (v := v) (fun _ hmv => copySchedule_within hmv) m a
  rw [covers_copySchedule] at hin hout
  rw [memGet_memWrite, copyFixed]
  split
  case isTrue h => exact hin h.1 (by omega)
  case isFalse h => exact hout (by omega)

theorem Memory.wf_mono {d : Byte} {limit limit' : Nat} {m : Memory} (h : Memory.wf d limit m = true)
    (hle : limit ≤ limit') : Memory.wf d limit' m = true := by
  rw [Memory.wf_iff] at h ⊢
  exact ⟨h.1, fun c hc => ⟨(h.2 c hc).1.trans_le hle, (h.2 c hc).2⟩⟩

/-- Moves within the copy keep the canonical form. -/
theorem foldl_storeMove_wf {d : Byte} {limit dst : Nat} {v : List Byte} {moves : List Move}
    (h : ∀ mv ∈ moves, mv.off + mv.width ≤ v.length) (hlimit : dst + v.length ≤ limit) {m : Memory}
    (hm : Memory.wf d limit m = true) : Memory.wf d limit (moves.foldl (storeMove d dst v) m) = true := by
  induction moves generalizing m with
  | nil => exact hm
  | cons mv moves ih =>
    have hmv := h mv List.mem_cons_self
    refine ih (fun x hx => h x (List.mem_cons_of_mem mv hx)) (memWrite_wf _ _ _ _ _ hm ?_)
    rw [List.length_take, List.length_drop]
    omega

/-- The fixed-timing copy of a range inside the space keeps the canonical form. -/
theorem copyFixed_wf {d : Byte} {limit : Nat} {m : Memory} {dst : Nat} {v : List Byte}
    (hm : Memory.wf d limit m = true) (hlimit : dst + v.length ≤ limit) :
    Memory.wf d limit (copyFixed d m dst v) = true :=
  foldl_storeMove_wf (fun _ hmv => copySchedule_within hmv) hlimit hm

/-- Settles O13: both leave the same bytes in canonical form, which makes them the same storage. -/
theorem fixedCopyEqualsPlainWrite : Obligations.FixedCopyEqualsPlainWrite := by
  intro d limit m dst v hm
  have hm' := Memory.wf_mono hm (le_max_left limit (dst + v.length))
  exact Memory.ext_of_wf d (max limit (dst + v.length)) _ _ (copyFixed_wf hm' (le_max_right ..))
    (memWrite_wf _ _ _ _ _ hm' (le_max_right ..)) (memGet_copyFixed d m dst v)

/-! The labelled steps of a copy (R145, R148). -/

section
variable {i : Instr} {dst src n : Word} {moved : State → Memory} {s : State}

theorem copyCommand_of_portFree (h : s.portFree i.port) : copyCommand i dst src n moved s =
    if overlap dst src n then .next (s.raiseFatal i.port copyOverlapCode) else .next (s.goTo i .copyMove) := by
  simp only [copyCommand, State.progress_of_portFree h]

theorem copyCommand_of_move (h : s.atStage i .copyMove)
    (hhost : s.hostRefusal i.port [rangeAt src n.toNat] [rangeAt dst n.toNat] = none) :
    copyCommand i dst src n moved s = .next ({ s with host := moved s }.goTo i .copyDone) := by
  simp only [copyCommand, State.progress_of_atStage h, hhost]

theorem copyCommand_of_done (h : s.atStage i .copyDone) :
    copyCommand i dst src n moved s = .next (s.finish i.port (done 0 0)) := by
  simp only [copyCommand, State.progress_of_atStage h]

end

/-- The ranges of a copy share a byte (R143). -/
theorem overlap_iff {dst src n : Word} : overlap dst src n = true ↔
    0 < n.toNat ∧ dst.toNat < src.toNat + n.toNat ∧ src.toNat < dst.toNat + n.toNat := by
  simp only [overlap, rangesMeet, Bool.and_eq_true, decide_eq_true_eq]
  omega

/-- COPYF and COPYW are the shared steps with HOST bytes moved as by one plain write (R140). -/
theorem exec_copy {i : Instr} {p : Port} {dst src n : Word} (hi : i = .copyf p dst src n ∨ i = .copyw p dst src n) :
    i.port = p ∧ ∃ moved : State → Memory, (∀ s, exec i s = copyCommand i dst src n moved s) ∧
      ∀ s a, memGet hostFill (moved s) a = (s.memWriteHost dst.toNat (s.memReadHost src.toNat n.toNat)).hostByte a := by
  rcases hi with rfl | rfl
  · exact ⟨rfl, _, fun _ => rfl, fun s a => memGet_copyFixed ..⟩
  · exact ⟨rfl, _, fun _ => rfl, fun s a => rfl⟩

/-- The first step of a copy whose ranges overlap. -/
theorem exec_copy_of_overlap {i : Instr} {p : Port} {dst src n : Word} {s : State}
    (hi : i = .copyf p dst src n ∨ i = .copyw p dst src n) (hfree : s.portFree p) (hover : overlap dst src n = true) :
    exec i s = .next ({ s with fatal := true, fatalCode := 1 }.finish p ⟨.fatal, 1, 0⟩) := by
  obtain ⟨rfl, moved, hexec, -⟩ := exec_copy hi
  rw [hexec, copyCommand_of_portFree hfree, if_pos hover]
  rfl

/-- Settles O10, one labelled step at a time. -/
theorem copiesMoveTheirBytes : Obligations.CopiesMoveTheirBytes := by
  intro i p dst src n s hi
  refine ⟨exec_copy_of_overlap hi, ?_⟩
  obtain ⟨rfl, moved, hexec, hmoved⟩ := exec_copy hi
  simp only [hexec]
  refine ⟨fun hfree hover => ?start, fun hat hhost => ?move, copyCommand_of_done⟩
  case start => rw [copyCommand_of_portFree hfree, if_neg (by simp [hover])]
  case move =>
    obtain ⟨hbytes, hother⟩ := s.memWriteHost_bytes dst.toNat (s.memReadHost src.toNat n.toNat)
    rw [State.memReadHost_length] at hbytes hother
    have hbyte : ∀ a, (({ s with host := moved s }).goTo i .copyDone).hostByte a =
        (s.memWriteHost dst.toNat (s.memReadHost src.toNat n.toNat)).hostByte a := fun a =>
      (State.goTo_hostByte ..).trans (hmoved s a)
    refine ⟨_, copyCommand_of_move hat hhost, by rw [State.goTo_host], fun k hk => ?_, fun a ha => ?_,
      fun hover k hk => ?_⟩
    · rw [hbyte, hbytes k hk, s.memReadHost_getD hk]
    · rw [hbyte, hother a ha]
    · have hdisjoint := mt overlap_iff.2 (Bool.eq_false_iff.1 hover)
      rw [hbyte, hother _ (by omega)]

/-- Settles O11: the test in numbers, and the first step of a copy that meets it. -/
theorem overlapRaisesFatal : Obligations.OverlapRaisesFatal :=
  ⟨fun _ _ _ => overlap_iff, fun _ _ _ _ _ _ hi hfree hpos hdst hsrc =>
    exec_copy_of_overlap hi hfree (overlap_iff.2 ⟨hpos, hdst, hsrc⟩)⟩

end Sys2Proof.Machine
end

section
/-! PROOF. The arithmetic of the ring's positions (spec/10_state.md R25) and the work bound of the converters
(spec/41_converters.md R172). -/

namespace Sys2Proof.Machine

/-! The work bound (R172). -/

/-- A count is within the bound exactly when the input, the staging buffer and the free space hold as many units. -/
theorem le_bound_iff {len uin uout fr k : Nat} (hin : 0 < uin) (hout : 0 < uout) :
    k ≤ bound len uin uout fr ↔ uin * k ≤ len ∧ uout * k ≤ stagingSize ∧ uout * k ≤ fr := by
  simp only [bound, le_min_iff, Nat.le_div_iff_mul_le hin, Nat.le_div_iff_mul_le hout, Nat.mul_comm]

/-- What the bound itself fits; with a unit of no bytes the bound is 0. -/
theorem bound_fits {len uin uout fr n : Nat} (hn : bound len uin uout fr = n) (hpos : 0 < n) :
    0 < uin ∧ 0 < uout ∧ uin * n ≤ len ∧ uout * n ≤ stagingSize ∧ uout * n ≤ fr := by
  have hin : 0 < uin := by
    rcases Nat.eq_zero_or_pos uin with rfl | h
    · simp [bound] at hn; omega
    · exact h
  have hout : 0 < uout := by
    rcases Nat.eq_zero_or_pos uout with rfl | h
    · simp [bound] at hn; omega
    · exact h
  exact ⟨hin, hout, (le_bound_iff hin hout).1 hn.ge⟩

/-- Settles O19. -/
theorem boundIsLargestFit : Obligations.BoundIsLargestFit :=
  fun _ _ _ _ hin hout => ⟨rfl, fun _ => le_bound_iff hin hout⟩

/-! Differences of positions modulo SIZE (R25). -/

section
variable {s : State}

/-- A masked word is the remainder modulo SIZE of any integer the word is modulo 2^32. -/
theorem State.and_mask_toInt (h : s.sizeLog2.toNat ≤ 32) {x : Word} {e : Int} (hx : (x.toNat : Int) = e % 2 ^ 32) :
    ((x &&& s.mask).toNat : Int) = e % s.size := by
  have hdvd : (s.size : Int) ∣ 2 ^ 32 := by exact_mod_cast s.size_dvd h
  rw [s.and_mask_toNat h, Int.natCast_emod, hx, Int.emod_emod_of_dvd e hdvd]

theorem State.avail_toInt (h : s.sizeLog2.toNat ≤ 32) :
    (s.avail.toNat : Int) = ((s.wp.toNat : Int) - s.rp.toNat) % s.size := by
  refine State.and_mask_toInt h ?_
  have hw := s.wp.isLt
  have hr := s.rp.isLt
  rw [BitVec.toNat_sub]
  omega

theorem State.free_toInt (h : s.sizeLog2.toNat ≤ 32) :
    (s.free.toNat : Int) = ((s.rp.toNat : Int) - s.wp.toNat - 1) % s.size := by
  refine State.and_mask_toInt h ?_
  have hw := s.wp.isLt
  have hr := s.rp.isLt
  have hone : (1 : Word).toNat = 1 := rfl
  rw [BitVec.toNat_sub, BitVec.toNat_sub, hone]
  omega

/-- Moving a position on is addition modulo SIZE (R23, R24). -/
theorem State.advancePos_toNat (h : s.sizeLog2.toNat ≤ 32) (pos : Word) (n : Nat) :
    (advancePos s.mask pos n).toNat = (pos.toNat + n) % s.size := by
  rw [advancePos, s.and_mask_toNat h, BitVec.toNat_add, BitVec.toNat_ofNat, Nat.mod_mod_of_dvd _ (s.size_dvd h),
    Nat.add_mod, Nat.mod_mod_of_dvd _ (s.size_dvd h), ← Nat.add_mod]

/-- Occupied bytes, both positions being below SIZE. -/
theorem State.avail_eq (h : s.sizeLog2.toNat ≤ 32) (hw : s.wp.toNat < s.size) (hr : s.rp.toNat < s.size) :
    s.avail.toNat = if s.rp.toNat ≤ s.wp.toNat then s.wp.toNat - s.rp.toNat
      else s.size + s.wp.toNat - s.rp.toNat := by
  have hint := State.avail_toInt h
  split
  case isTrue hle => rw [Int.emod_eq_of_lt (by omega) (by omega)] at hint; omega
  case isFalse hlt =>
    rw [← Int.add_emod_right, Int.emod_eq_of_lt (by omega) (by omega)] at hint
    omega

/-- Free bytes, both positions being below SIZE. -/
theorem State.free_eq (h : s.sizeLog2.toNat ≤ 32) (hw : s.wp.toNat < s.size) (hr : s.rp.toNat < s.size) :
    s.free.toNat = if s.wp.toNat < s.rp.toNat then s.rp.toNat - s.wp.toNat - 1
      else s.size + s.rp.toNat - s.wp.toNat - 1 := by
  have hint := State.free_toInt h
  split
  case isTrue hlt => rw [Int.emod_eq_of_lt (by omega) (by omega)] at hint; omega
  case isFalse hle =>
    rw [← Int.add_emod_right, Int.emod_eq_of_lt (by omega) (by omega)] at hint
    omega

/-- One slot of the ring is reserved (R25). -/
theorem State.avail_add_free (h : s.sizeLog2.toNat ≤ 32) : s.avail.toNat + s.free.toNat = s.size - 1 := by
  have hpos := s.size_pos
  have ha := State.avail_toInt h
  have hf := State.free_toInt h
  set e : Int := (s.wp.toNat : Int) - s.rp.toNat with he
  have hlow := Int.emod_nonneg e (b := s.size) (by omega)
  have hhigh := Int.emod_lt_of_pos e (b := s.size) (by omega)
  have hsplit := Int.emod_add_mul_ediv e s.size
  have hother : (s.rp.toNat : Int) - s.wp.toNat - 1 =
      (s.size - 1 - e % s.size) + s.size * (-(e / s.size) - 1) := by
    linear_combination hsplit + he
  rw [hother, Int.add_mul_emod_self_left, Int.emod_eq_of_lt (by omega) (by omega)] at hf
  omega

end

/-- Settles O20. -/
theorem occupancyArithmetic : Obligations.OccupancyArithmetic := by
  intro s h31
  have h : s.sizeLog2.toNat ≤ 32 := by omega
  refine ⟨State.avail_toInt h, State.free_toInt h, State.avail_add_free h, fun hw hr => ?_,
    State.advancePos_toNat h⟩
  have ha := State.avail_eq h hw hr
  have hf := State.free_eq h hw hr
  have hzero : (0 : Word).toNat = 0 := rfl
  simp only [← BitVec.toNat_inj, hzero]
  refine ⟨?empty, ?full⟩
  case empty => split at ha <;> omega
  case full =>
    rcases Nat.lt_or_ge (s.wp.toNat + 1) s.size with hlt | hge
    · rw [Nat.mod_eq_of_lt hlt]
      split at hf <;> omega
    · have hlast : s.wp.toNat + 1 = s.size := by omega
      rw [hlast, Nat.mod_self]
      split at hf <;> omega

end Sys2Proof.Machine
end

section
/-! PROOF. The zero-copy commands (spec/42_ring.md R188, R189, R192, R193): a region granted, and a region closed. -/

namespace Sys2Proof.Machine

section
variable {needed written bytes : Word} {s : State} {g : Region}

theorem exec_wrgn_of_portFree (hfree : s.portFree .producer) (hphase : s.phaseP = .guarded) :
    exec (.wrgn needed) s =
      if s.contiguousFree < needed.toNat then .next (s.finish .producer noRegion)
      else .next ({ s with wregion := some ⟨s.wp, s.contiguousFree⟩, winWritten := [], phaseP := .region }.finish
        .producer (done s.wp (BitVec.ofNat 32 s.contiguousFree))) := by
  simp only [exec, execWrgn, oneStep_of_portFree (i := .wrgn needed) hfree, needGuarded_eq_none.2 hphase]

theorem exec_rrgn_of_portFree (hfree : s.portFree .consumer) (hphase : s.phaseC = .guarded) :
    exec (.rrgn needed) s =
      if s.contiguousAvail < needed.toNat then .next (s.finish .consumer noRegion)
      else .next ({ s with rregion := some ⟨s.rp, s.contiguousAvail⟩, phaseC := .region }.finish .consumer
        (done s.rp (BitVec.ofNat 32 s.contiguousAvail))) := by
  simp only [exec, execRrgn, oneStep_of_portFree (i := .rrgn needed) hfree, needGuarded_eq_none.2 hphase]

/-- The three answers of WCOMMIT in an open region. -/
theorem exec_wcommit_of_region (hfree : s.portFree .producer) (hphase : s.phaseP = .region)
    (hregion : s.wregion = some g) :
    exec (.wcommit written) s =
      if written.toNat ≤ g.len then
        if allWritten s.winWritten g.base.toNat written.toNat then
          .next ({ s with
              wp := advancePos s.mask g.base written.toNat, wregion := none, winWritten := []
              phaseP := .guarded }.finish .producer (done 0 0))
        else .refused .bytesNotWritten
      else .refused .grantExceeded := by
  simp only [exec, execWcommit, oneStep_of_portFree (i := .wcommit written) hfree, needRegion_eq_none.2 hphase,
    hregion]

/-- WCOMMIT of bytes granted and written. -/
theorem exec_wcommit_of_written (hfree : s.portFree .producer) (hphase : s.phaseP = .region)
    (hregion : s.wregion = some g) (hlen : written.toNat ≤ g.len)
    (hwritten : ∀ k < written.toNat, g.base.toNat + k ∈ s.winWritten) :
    exec (.wcommit written) s =
      .next ({ s with
          wp := advancePos s.mask g.base written.toNat, wregion := none, winWritten := []
          phaseP := .guarded }.finish .producer (done 0 0)) := by
  rw [exec_wcommit_of_region hfree hphase hregion, if_pos hlen, if_pos (allWritten_iff.2 hwritten)]

/-- The two answers of RADV in an open region. -/
theorem exec_radv_of_region (hfree : s.portFree .consumer) (hphase : s.phaseC = .region)
    (hregion : s.rregion = some g) :
    exec (.radv bytes) s =
      if bytes.toNat ≤ g.len then
        .next ({ s with rp := advancePos s.mask g.base bytes.toNat, rregion := none, phaseC := .guarded }.finish
          .consumer (done 0 0))
      else .refused .grantExceeded := by
  simp only [exec, execRadv, oneStep_of_portFree (i := .radv bytes) hfree, needRegion_eq_none.2 hphase, hregion]

end

/-- Settles O25: each request is one comparison with the contiguous bytes. -/
theorem regionRequests : Obligations.RegionRequests := by
  refine ⟨fun needed s hfree hphase => ⟨fun hshort => ?_, fun hfits => ?_⟩,
    fun needed s hfree hphase => ⟨fun hshort => ?_, fun hfits => ?_⟩⟩
  · exact (exec_wrgn_of_portFree hfree hphase).trans (if_pos hshort)
  · exact (exec_wrgn_of_portFree hfree hphase).trans (if_neg hfits.not_gt)
  · exact (exec_rrgn_of_portFree hfree hphase).trans (if_pos hshort)
  · exact (exec_rrgn_of_portFree hfree hphase).trans (if_neg hfits.not_gt)

/-- A window write that answers adds its own offsets to the record. -/
theorem mem_winWritten_of_winWrite {off : Word} {v : List Byte} {s t : State} (h : winWrite off v s = .next t)
    (o : Nat) : o ∈ t.winWritten ↔ o ∈ s.winWritten ∨ (off.toNat ≤ o ∧ o < off.toNat + v.length) := by
  obtain ⟨-, -, u, -, rfl⟩ := winWrite_next h
  exact mem_addOffsets

/-- Settles O26. -/
theorem regionCommits : Obligations.RegionCommits := by
  refine ⟨fun written s g hfree hphase hregion hlen hwritten =>
      exec_wcommit_of_written hfree hphase hregion hlen hwritten,
    fun s t off v es hschedule hstep o => ?_, fun bytes s g hfree hphase hregion hlen => ?_⟩
  · exact mem_winWritten_of_winWrite ((step_of_winWrite hschedule).symm.trans hstep) o
  · exact (exec_radv_of_region hfree hphase hregion).trans (if_pos hlen)

end Sys2Proof.Machine
end

section
/-! PROOF. The reconfiguration guard (spec/44_guards_format.md R256 to R260) and SETFMT (R262): each labelled step as
an equation of its command. -/

namespace Sys2Proof.Machine

/-! RENTER and REXIT. -/

section
variable {s : State}

theorem exec_renter_of_portFree (hfree : s.portFree .config) : exec .renter s =
    if s.phaseK = .idle ∧ s.reconfig = false then
      .next ({ s with reconfig := true, phaseK := .waiting }.goTo .renter .r2)
    else .refused .reconfigBusy := by
  simp only [exec, execRenter, State.progress_of_portFree (i := .renter) hfree]

theorem exec_renter_of_r2 (hat : s.atStage .renter .r2) : exec .renter s =
    if s.activeUsers = 0 then .next ({ s with phaseK := .excl }.finish .config (done 0 0)) else .next s := by
  simp only [exec, execRenter, State.progress_of_atStage hat]

end

/-- Settles O41. -/
theorem reconfigureGuardSteps : Obligations.ReconfigureGuardSteps := by
  intro s
  refine ⟨fun hfree hidle hflag => ?_, fun hat hzero => ?_, fun hat hne => ?_, fun hfree hexcl => ?_⟩
  · rw [exec_renter_of_portFree hfree, if_pos ⟨hidle, hflag⟩]
  · exact (exec_renter_of_r2 hat).trans (if_pos hzero)
  · rw [exec_renter_of_r2 hat, if_neg hne]
  · exact underExcl_of_excl (i := .rexit) hfree hexcl _

/-! SETFMT. -/

section
variable {f : Format} {s : State} {pending : List FmtField} {x : FmtField}

theorem exec_setfmt_of_portFree (hfree : s.portFree .config) (hexcl : s.phaseK = .excl) :
    exec (.setfmt f) s = .next (fmtStep f allFmtFields s) := by
  simp only [exec, execSetfmt, State.progress_of_portFree (i := .setfmt f) hfree, needExcl_eq_none.2 hexcl]

theorem exec_setfmt_of_fmtStore (hat : s.atStage (.setfmt f) (.fmtStore pending)) :
    exec (.setfmt f) s = .next (fmtStep f pending s) := by
  simp only [exec, execSetfmt, State.progress_of_atStage hat]

/-- With fields still to come, a step stores one of them. -/
theorem exists_fmtStep_eq (h : pending ≠ []) : ∃ x ∈ pending, fmtStep f pending s =
    { s with fmt := storeField s.fmt f x }.goTo (.setfmt f) (.fmtStore (pending.erase x)) :=
  (fmtStep_cases f pending s).resolve_left fun ⟨hnil, _⟩ => h hnil

/-- For every field still to come there is a choice of the turn that stores it (log 13). -/
theorem exists_choice_fmtStep_eq (h : x ∈ pending) : ∃ c, fmtStep f pending { s with choice := c } =
    { s with choice := c, fmt := storeField s.fmt f x }.goTo (.setfmt f) (.fmtStore (pending.erase x)) := by
  obtain ⟨c, hc, hx⟩ := List.getElem_of_mem h
  have hpick : pickField pending c = some x := by
    rw [pickField, Nat.mod_eq_of_lt hc, List.getElem?_eq_getElem hc, hx]
  refine ⟨c, ?_⟩
  simp only [fmtStep, hpick]

end

theorem mem_allFmtFields (x : FmtField) : x ∈ allFmtFields := by cases x <;> decide

/-- Stores of a set of fields leave exactly those fields at their operands, in whatever order (R262). -/
theorem foldl_storeField (old f : Format) (xs : List FmtField) : xs.foldl (fun a x => storeField a f x) old =
    { rate := if .rate ∈ xs then f.rate else old.rate
      channels := if .channels ∈ xs then f.channels else old.channels
      bytesIn := if .bytesIn ∈ xs then f.bytesIn else old.bytesIn
      bytesOut := if .bytesOut ∈ xs then f.bytesOut else old.bytesOut
      dsd := if .dsd ∈ xs then f.dsd else old.dsd
      pack24 := if .pack24 ∈ xs then f.pack24 else old.pack24
      up16to32 := if .up16to32 ∈ xs then f.up16to32 else old.up16to32
      dsdBitrev := if .dsdBitrev ∈ xs then f.dsdBitrev else old.dsdBitrev
      dsdBswap := if .dsdBswap ∈ xs then f.dsdBswap else old.dsdBswap
      lowbitrate := if .lowbitrate ∈ xs then f.lowbitrate else old.lowbitrate } := by
  induction xs generalizing old with
  | nil => rfl
  | cons x xs ih =>
    rw [List.foldl_cons, ih]
    cases x <;> simp [storeField]

/-- Settles O45. -/
theorem setfmtSteps : Obligations.SetfmtSteps := by
  refine ⟨fun f s hfree hexcl => ?first, fun f s x hfree hexcl => ?firstChoice, fun f s pending hat hne => ?further,
    fun f s pending x hat hx => ?furtherChoice, fun f s hat => ?last, foldl_storeField⟩
  case first =>
    obtain ⟨x, hx, hstep⟩ := exists_fmtStep_eq (f := f) (s := s) (List.ne_nil_of_mem (mem_allFmtFields .rate))
    exact ⟨x, hx, by rw [exec_setfmt_of_portFree hfree hexcl, hstep]⟩
  case firstChoice =>
    obtain ⟨c, hstep⟩ := exists_choice_fmtStep_eq (f := f) (s := s) (mem_allFmtFields x)
    exact ⟨c, (exec_setfmt_of_portFree (s := { s with choice := c }) hfree hexcl).trans (congrArg _ hstep)⟩
  case further =>
    obtain ⟨x, hx, hstep⟩ := exists_fmtStep_eq (f := f) (s := s) hne
    exact ⟨x, hx, by rw [exec_setfmt_of_fmtStore hat, hstep]⟩
  case furtherChoice =>
    obtain ⟨c, hstep⟩ := exists_choice_fmtStep_eq (f := f) (s := s) hx
    exact ⟨c, (exec_setfmt_of_fmtStore (s := { s with choice := c }) hat).trans (congrArg _ hstep)⟩
  case last => exact exec_setfmt_of_fmtStore hat

end Sys2Proof.Machine
end

section
/-! PROOF. Commands in a phase the table of R292 does not list for them (spec/60_exceptions.md R292, R320 to R325, R333):
the refusal of each at its first step. -/

namespace Sys2Proof.Machine

section
variable {s : State} {r : Refusal}

/-! Commands that require GUARDED. -/

theorem exec_push_refused {src len : Word} (hfree : s.portFree .producer) (h : needGuarded s.phaseP = some r) :
    exec (.push src len) s = .refused r := by
  simp only [exec, execPush, State.progress_of_portFree (i := .push src len) hfree, h]

theorem exec_pop_refused {dst len : Word} (hfree : s.portFree .consumer) (h : needGuarded s.phaseC = some r) :
    exec (.pop dst len) s = .refused r := by
  simp only [exec, execPop, State.progress_of_portFree (i := .pop dst len) hfree, h]

theorem convertPush_refused {k : Converting} (hfree : s.portFree k.instr.port) (h : needGuarded s.phaseP = some r) :
    convertPush k s = .refused r := by
  simp only [convertPush, State.progress_of_portFree hfree, h]

theorem exec_wrgn_refused {n : Word} (hfree : s.portFree .producer) (h : needGuarded s.phaseP = some r) :
    exec (.wrgn n) s = .refused r := by
  simp only [exec, execWrgn, oneStep_of_portFree (i := .wrgn n) hfree, h]

theorem exec_rrgn_refused {n : Word} (hfree : s.portFree .consumer) (h : needGuarded s.phaseC = some r) :
    exec (.rrgn n) s = .refused r := by
  simp only [exec, execRrgn, oneStep_of_portFree (i := .rrgn n) hfree, h]

theorem exec_s24hint_refused {p : Port} {hint : S24Hint} (hfree : s.portFree p) (hp : p ≠ .consumer)
    (h : s.needHint p = some r) : exec (.s24hint p hint) s = .refused r := by
  simp only [exec, execS24hint, oneStep_of_portFree (i := .s24hint p hint) hfree, if_neg hp, h]

/-! Commands that require REGION. -/

theorem exec_wcommit_refused {n : Word} (hfree : s.portFree .producer) (h : needRegion s.phaseP = some r) :
    exec (.wcommit n) s = .refused r := by
  simp only [exec, execWcommit, oneStep_of_portFree (i := .wcommit n) hfree, h]

theorem exec_radv_refused {n : Word} (hfree : s.portFree .consumer) (h : needRegion s.phaseC = some r) :
    exec (.radv n) s = .refused r := by
  simp only [exec, execRadv, oneStep_of_portFree (i := .radv n) hfree, h]

/-! Snapshots, which require an active guard on a data port. -/

theorem snapshot_refused {i : Instr} {v : Word} (hfree : s.portFree i.port) (h : s.needSnapshot i.port = some r) :
    snapshot i v s = .refused r := by
  simp only [snapshot, oneStep_of_portFree hfree, h]

/-! The guards. -/

theorem exec_genter_refused {p : DataPort} (hfree : s.portFree p.port) (h : s.phase p ≠ .idle) :
    exec (.genter p) s = .refused .nestedGuard := by
  simp only [exec, execGenter, State.progress_of_portFree (i := .genter p) hfree, if_neg h]

theorem exec_gexit_refused {p : DataPort} (hfree : s.portFree p.port) (h : s.phase p = .region) :
    exec (.gexit p) s = .refused .regionOpen := by
  simp only [exec, execGexit, oneStep_of_portFree (i := .gexit p) hfree, if_pos h]

/-! K's commands, which require exclusive ownership. -/

theorem needExcl_eq_notExclusive {f : ConfigPhase} (h : f ≠ .excl) : needExcl f = some .notExclusive := by
  cases f with
  | idle | waiting => rfl
  | excl => exact absurd rfl h

theorem underExcl_refused {i : Instr} {t : State} (hfree : s.portFree i.port) (h : s.phaseK ≠ .excl) :
    underExcl i s t = .refused .notExclusive := by
  simp only [underExcl, oneStep_of_portFree hfree, needExcl_eq_notExclusive h]

theorem exec_setfmt_refused {f : Format} (hfree : s.portFree .config) (h : s.phaseK ≠ .excl) :
    exec (.setfmt f) s = .refused .notExclusive := by
  simp only [exec, execSetfmt, State.progress_of_portFree (i := .setfmt f) hfree, needExcl_eq_notExclusive h]

/-! The commits. -/

theorem exec_wcommit_beyond_grant {n : Word} {g : Region} (hfree : s.portFree .producer) (hphase : s.phaseP = .region)
    (hregion : s.wregion = some g) (h : g.len < n.toNat) : exec (.wcommit n) s = .refused .grantExceeded := by
  rw [exec_wcommit_of_region hfree hphase hregion, if_neg h.not_ge]

theorem exec_wcommit_unwritten {n : Word} {g : Region} {k : Nat} (hfree : s.portFree .producer)
    (hphase : s.phaseP = .region) (hregion : s.wregion = some g) (hlen : n.toNat ≤ g.len) (hk : k < n.toNat)
    (h : g.base.toNat + k ∉ s.winWritten) : exec (.wcommit n) s = .refused .bytesNotWritten := by
  rw [exec_wcommit_of_region hfree hphase hregion, if_pos hlen, if_neg]
  exact fun hall => h (allWritten_iff.1 hall k hk)

theorem exec_radv_beyond_grant {n : Word} {g : Region} (hfree : s.portFree .consumer) (hphase : s.phaseC = .region)
    (hregion : s.rregion = some g) (h : g.len < n.toNat) : exec (.radv n) s = .refused .grantExceeded := by
  rw [exec_radv_of_region hfree hphase hregion, if_neg h.not_ge]

end

/-- Settles O52, one phase of one port at a time. -/
theorem protocolViolationsRefused : Obligations.ProtocolViolationsRefused := by
  refine ⟨fun s src len n ch rev swap hint hfree hphase => ?idleP,
    fun s src len n ch rev swap hint hfree hphase => ?regionP, fun s n hfree hphase => ?guardedP,
    fun s dst len n hfree hphase => ?idleC, fun s dst len n hfree hphase => ?regionC,
    fun s n hfree hphase => ?guardedC, fun s c b hint f hfree hphase => ?notExcl,
    fun s hfree hbusy => ?busy, fun s hint hfree => ?hintC⟩
  case idleP =>
    have hguarded : needGuarded s.phaseP = some .noActiveGuard := by rw [hphase]; rfl
    have hregion : needRegion s.phaseP = some .noActiveGuard := by rw [hphase]; rfl
    have hsnapshot : s.needSnapshot .producer = some .noActiveGuard := if_pos hphase
    exact ⟨exec_push_refused hfree hguarded,
      convertPush_refused (k := push24Converting src len) hfree hguarded,
      convertPush_refused (k := push16Converting src len) hfree hguarded,
      convertPush_refused (k := pushdsdConverting src len ch rev swap) hfree hguarded,
      exec_wrgn_refused hfree hguarded, exec_wcommit_refused hfree hregion,
      exec_s24hint_refused hfree (by decide) hguarded,
      snapshot_refused (i := .avail .producer) hfree hsnapshot,
      snapshot_refused (i := .free .producer) hfree hsnapshot⟩
  case regionP =>
    have hguarded : needGuarded s.phaseP = some .regionOpen := by rw [hphase]; rfl
    exact ⟨exec_push_refused hfree hguarded,
      convertPush_refused (k := push24Converting src len) hfree hguarded,
      convertPush_refused (k := push16Converting src len) hfree hguarded,
      convertPush_refused (k := pushdsdConverting src len ch rev swap) hfree hguarded,
      exec_wrgn_refused hfree hguarded, exec_s24hint_refused hfree (by decide) hguarded,
      exec_gexit_refused (p := .producer) hfree hphase,
      exec_genter_refused (p := .producer) hfree (by simp [State.phase, hphase]),
      fun g hg hlen => exec_wcommit_beyond_grant hfree hphase hg hlen,
      fun g k hg hlen hk hunwritten => exec_wcommit_unwritten hfree hphase hg hlen hk hunwritten⟩
  case guardedP =>
    exact ⟨exec_wcommit_refused hfree (by rw [hphase]; rfl),
      exec_genter_refused (p := .producer) hfree (by simp [State.phase, hphase])⟩
  case idleC =>
    have hguarded : needGuarded s.phaseC = some .noActiveGuard := by rw [hphase]; rfl
    have hsnapshot : s.needSnapshot .consumer = some .noActiveGuard := if_pos hphase
    exact ⟨exec_pop_refused hfree hguarded, exec_rrgn_refused hfree hguarded,
      exec_radv_refused hfree (by rw [hphase]; rfl),
      snapshot_refused (i := .avail .consumer) hfree hsnapshot,
      snapshot_refused (i := .free .consumer) hfree hsnapshot⟩
  case regionC =>
    have hguarded : needGuarded s.phaseC = some .regionOpen := by rw [hphase]; rfl
    exact ⟨exec_pop_refused hfree hguarded, exec_rrgn_refused hfree hguarded,
      exec_gexit_refused (p := .consumer) hfree hphase,
      exec_genter_refused (p := .consumer) hfree (by simp [State.phase, hphase]),
      fun g hg hlen => exec_radv_beyond_grant hfree hphase hg hlen⟩
  case guardedC =>
    exact ⟨exec_radv_refused hfree (by rw [hphase]; rfl),
      exec_genter_refused (p := .consumer) hfree (by simp [State.phase, hphase])⟩
  case notExcl =>
    exact ⟨underExcl_refused (i := .resize c b) hfree hphase, underExcl_refused (i := .clear) hfree hphase,
      underExcl_refused (i := .rexit) hfree hphase, exec_setfmt_refused hfree hphase,
      exec_s24hint_refused hfree (by decide) (needExcl_eq_notExclusive hphase)⟩
  case busy =>
    rw [exec_renter_of_portFree hfree, if_neg]
    rintro ⟨hidle, hflag⟩
    simp [hidle, hflag] at hbusy
  case hintC =>
    simp only [exec, execS24hint, oneStep_of_portFree (i := .s24hint .consumer hint) hfree, ↓reduceIte,
      illegalResponse]

end Sys2Proof.Machine
end

section
/-! PROOF. HOST accesses (spec/20_memory.md R72, R98; spec/70_reset_and_hazards.md R311, R329): the conditions of an
access in words, the commands' accessing steps, an agent's store, and what reset leaves of HOST memory. -/

namespace Sys2Proof.Machine

/-! The three conditions, in their order. -/

theorem hostSize_eq : hostSize = 2 ^ 32 := rfl

theorem rangesInHost_eq_false {rs : List HostRange} :
    rangesInHost rs = false ↔ ∃ r ∈ rs, 2 ^ 32 < r.base + r.len := by
  rw [← hostSize_eq]
  simp [rangesInHost]

theorem rangesInHost_eq_true {rs : List HostRange} :
    rangesInHost rs = true ↔ ∀ r ∈ rs, r.base + r.len ≤ 2 ^ 32 := by
  rw [← hostSize_eq]
  simp [rangesInHost]

theorem anyMeet_eq_true {xs ys : List HostRange} :
    anyMeet xs ys = true ↔ ∃ x ∈ xs, ∃ y ∈ ys, rangesMeet x y = true := by
  simp [anyMeet]

theorem admits_eq_false {cfg : Config} {rs : List HostRange} :
    Config.admits cfg rs = false ↔ ∃ r ∈ rs, ∃ h ∈ cfg.hostHoles, rangesMeet r h = true := by
  simp [Config.admits, anyMeet_eq_true]

theorem admits_eq_true {cfg : Config} {rs : List HostRange} :
    Config.admits cfg rs = true ↔ ∀ r ∈ rs, ∀ h ∈ cfg.hostHoles, rangesMeet r h = false := by
  rw [← Bool.not_eq_false, admits_eq_false]
  simp

/-- An access races with a command in flight: one writes a byte the other reads or writes (R329). -/
theorem raceWith_eq_true {reads writes : List HostRange} {c : Option Command} :
    raceWith reads writes c = true ↔ ∃ cmd, c = some cmd ∧ ∃ x y, rangesMeet x y = true ∧
      ((x ∈ writes ∧ y ∈ cmd.hostReads ++ cmd.hostWrites) ∨ (x ∈ reads ∧ y ∈ cmd.hostWrites)) := by
  cases c with
  | none => simp [raceWith]
  | some cmd =>
    simp only [raceWith, Bool.or_eq_true, anyMeet_eq_true, Option.some.injEq, exists_eq_left']
    constructor
    · rintro (⟨x, hx, y, hy, hm⟩ | ⟨x, hx, y, hy, hm⟩)
      · exact ⟨x, y, hm, .inl ⟨hx, hy⟩⟩
      · exact ⟨x, y, hm, .inr ⟨hx, hy⟩⟩
    · rintro ⟨x, y, hm, ⟨hx, hy⟩ | ⟨hx, hy⟩⟩
      · exact .inl ⟨x, hx, y, hy, hm⟩
      · exact .inr ⟨x, hx, y, hy, hm⟩

theorem State.hostRaces_eq_true {s : State} {p : Port} {reads writes : List HostRange} :
    s.hostRaces p reads writes = true ↔ ∃ q, q ≠ p ∧ raceWith reads writes (s.lane q).inflight = true := by
  simp only [State.hostRaces, List.any_eq_true, List.mem_filter, decide_eq_true_eq]
  constructor
  · rintro ⟨q, ⟨-, hq⟩, hr⟩
    exact ⟨q, hq, hr⟩
  · rintro ⟨q, hq, hr⟩
    exact ⟨q, ⟨by cases q <;> simp, hq⟩, hr⟩

/-! The accessing step of a command. -/

/-- A command's accessing step, s2 of a copy, push or pop, asks for the ranges of its own count. -/
theorem exec_of_hostRefusal {s : State} {i : Instr} {st : Stage} {e : Refusal} (hat : s.atStage i st)
    (hlegal : (Command.mk i st).legal = true) (hst : st = .copyMove ∨ ∃ w n, st = .move w n)
    (h : s.hostRefusal i.port (Command.mk i st).hostReads (Command.mk i st).hostWrites = some e) :
    exec i s = .refused e := by
  have hprogress := State.progress_of_atStage hat
  rcases hst with rfl | ⟨w, n, rfl⟩
  · cases i with
    | copyf p dst src n =>
      simp only [exec, execCopyf, copyCommand, hprogress]
      simp only [Command.hostReads, Command.hostWrites] at h
      rw [h]
    | copyw p dst src n =>
      simp only [exec, execCopyw, copyCommand, hprogress]
      simp only [Command.hostReads, Command.hostWrites] at h
      rw [h]
    | _ => cases hlegal
  · have hconvert : ∀ k : Converting, k.instr = i → s.hostRefusal .producer (k.reads n) [] = some e →
        convertPush k s = .refused e := by
      rintro k rfl hk
      simp only [convertPush, hprogress, hk]
    cases i with
    | push src len =>
      simp only [exec, execPush, hprogress]
      simp only [Command.hostReads, Command.hostWrites, Instr.port] at h
      rw [h]
    | pop dst len =>
      simp only [exec, execPop, hprogress]
      simp only [Command.hostReads, Command.hostWrites, Instr.port] at h
      rw [h]
    | push24 src len => exact hconvert (push24Converting src len) rfl h
    | push16 src len => exact hconvert (push16Converting src len) rfl h
    | pushdsd src len ch rev swap => exact hconvert (pushdsdConverting src len ch rev swap) rfl h
    | _ => cases hlegal

/-- Settles O53: the three conditions are asked in this order. -/
theorem hostAccessRefused : Obligations.HostAccessRefused := by
  intro s i st hat hlegal hst
  refine ⟨fun htop => ?top, fun hin hhole => ?hole, fun hin hno ⟨q, c, hq, hc, hmeet⟩ => ?race⟩ <;>
    refine exec_of_hostRefusal hat hlegal hst ?_
  case top => exact if_pos (rangesInHost_eq_false.2 htop)
  case hole =>
    rw [State.hostRefusal, if_neg (by simp [rangesInHost_eq_true.2 hin]), if_pos (admits_eq_false.2 hhole)]
  case race =>
    have hraces := State.hostRaces_eq_true.2 ⟨q, hq, raceWith_eq_true.2 ⟨c, hc, hmeet⟩⟩
    rw [State.hostRefusal, if_neg (by simp [rangesInHost_eq_true.2 hin]), if_neg (by simp [admits_eq_true.2 hno]),
      if_pos hraces]

/-! An agent's store. -/

theorem step_of_hostStore {s : State} {addr : Word} {v : List Byte} {es : List Event}
    (h : s.schedule = .hostStore addr v :: es) : step s = hostStore addr v { s with schedule := es } := by
  simp only [step, nextEvent, h, handle]

/-- A store meets a range of some command in flight. -/
theorem storeRaces_iff {s : State} {r : HostRange} :
    [Port.producer, .consumer, .config].any (fun q => raceWith [] [r] (s.lane q).inflight) = true ↔
      ∃ q c, (s.lane q).inflight = some c ∧ ∃ y ∈ c.hostReads ++ c.hostWrites, rangesMeet r y = true := by
  simp only [List.any_eq_true, raceWith_eq_true, List.mem_singleton, List.not_mem_nil, false_and, or_false]
  constructor
  · rintro ⟨q, -, c, hc, x, y, hm, rfl, hy⟩
    exact ⟨q, c, hc, y, hy, hm⟩
  · rintro ⟨q, c, hc, y, hy, hm⟩
    exact ⟨q, by cases q <;> simp, c, hc, r, y, hm, rfl, hy⟩

/-- Settles O54: the three refusals in their order, and a store that meets none of them. -/
theorem hostStoreWritesItsBytes : Obligations.HostStoreWritesItsBytes := by
  intro s addr v es hschedule
  rw [step_of_hostStore hschedule]
  have htop : rangesInHost [rangeAt addr v.length] = false ↔ 2 ^ 32 < addr.toNat + v.length := by
    simp [rangesInHost_eq_false, rangeAt]
  have hhole : Config.admits s.cfg [rangeAt addr v.length] = false ↔
      ∃ h ∈ s.cfg.hostHoles, rangesMeet ⟨addr.toNat, v.length⟩ h = true := by
    simp [admits_eq_false, rangeAt]
  have hrace := storeRaces_iff (s := { s with schedule := es }) (r := rangeAt addr v.length)
  refine ⟨fun h => if_pos (htop.2 h), fun hin h => ?hole, fun hin hno ⟨q, c, hc, y, hy, hm⟩ => ?race,
    fun hin hno hfree => ?stored⟩
  case hole => rw [hostStore, if_neg (mt htop.1 hin.not_gt), if_pos (hhole.2 h)]
  case race =>
    have hno' : ¬ Config.admits s.cfg [rangeAt addr v.length] = false := by
      rw [hhole]; rintro ⟨h, hh, hmeet⟩; simp [hno h hh] at hmeet
    rw [hostStore, if_neg (mt htop.1 hin.not_gt), if_neg hno', if_pos (hrace.2 ⟨q, c, by cases q <;> exact hc, y, hy, hm⟩)]
  case stored =>
    have hno' : ¬ Config.admits s.cfg [rangeAt addr v.length] = false := by
      rw [hhole]; rintro ⟨h, hh, hmeet⟩; simp [hno h hh] at hmeet
    refine ⟨State.memWriteHost { s with schedule := es } addr.toNat v, ?_, rfl, State.memWriteHost_bytes _ addr.toNat v⟩
    rw [hostStore, if_neg (mt htop.1 hin.not_gt), if_neg hno', if_neg]
    rw [hrace]
    rintro ⟨q, c, hc, y, hy, hm⟩
    have hq : (s.lane q).inflight = some c := by cases q <;> exact hc
    simp [rangeAt, hfree q c hq y hy] at hm

/-! Reset (R310, R311). -/

theorem step_of_reset {s : State} {landed : List Nat} {es : List Event} (h : s.schedule = .reset landed :: es) :
    step s = .next (State.blockReset { s with schedule := es } landed) := by
  simp only [step, nextEvent, h, handle]

/-- An access that is given a step ends within HOST space. -/
theorem State.write_in_host {s : State} {p : Port} {reads : List HostRange} {r : HostRange}
    (h : s.hostRefusal p reads [r] = none) : r.base + r.len ≤ hostSize :=
  ((s.hostRefusal_eq_none p reads [r]).1 h).1 r (by simp)

/-- What an abandoned command was about to write is a range it writes, inside HOST space. -/
theorem State.pendingHostWrite_eq_some {s : State} {c : Command} {a : Nat} {v : List Byte}
    (h : s.pendingHostWrite c = some (a, v)) : ⟨a, v.length⟩ ∈ c.hostWrites ∧ a + v.length ≤ hostSize := by
  unfold State.pendingHostWrite at h
  split at h
  case h_1 p dst src n hi hst | h_2 p dst src n hi hst =>
    obtain ⟨hnone, hpair⟩ := Option.ite_none_right_eq_some.1 h
    cases hpair
    have hfits := State.write_in_host (Option.isNone_iff_eq_none.1 hnone)
    rw [State.memReadHost_length]
    exact ⟨by simp [Command.hostWrites, hi, rangeAt], hfits⟩
  case h_3 dst len r n hi hst =>
    obtain ⟨hnone, hpair⟩ := Option.ite_none_right_eq_some.1 h
    obtain ⟨bytes, hget, hpair⟩ := Option.map_eq_some_iff.1 hpair
    cases hpair
    have hfits := State.write_in_host (Option.isNone_iff_eq_none.1 hnone)
    rw [s.ringGet_length r n v hget]
    exact ⟨by simp [Command.hostWrites, hi, hst, rangeAt], hfits⟩
  case h_4 => cases h

/-- HOST address `a` is one the event lists as landed, in a range that the port's abandoned command writes. -/
def State.MayLand (s : State) (landed : List Nat) (p : Port) (a : Nat) : Prop :=
  a ∈ landed ∧ ∃ cmd r, (s.lane p).inflight = some cmd ∧ r ∈ cmd.hostWrites ∧ r.base ≤ a ∧ a < r.base + r.len

/-- All that an abandoned command's bytes can do to HOST storage: land some of them inside HOST space. -/
theorem State.landTorn_cases (s : State) (landed : List Nat) (p : Port) (m : Memory) :
    s.landTorn landed p m = m ∨ ∃ cmd a v, (s.lane p).inflight = some cmd ∧ ⟨a, v.length⟩ ∈ cmd.hostWrites ∧
      a + v.length ≤ hostSize ∧ s.landTorn landed p m = landBytes landed a v m := by
  unfold State.landTorn
  split
  · exact .inl rfl
  next cmd hcmd =>
    split
    · exact .inl rfl
    next a v hpending =>
      obtain ⟨hrange, hfits⟩ := State.pendingHostWrite_eq_some hpending
      exact .inr ⟨cmd, a, v, hcmd, hrange, hfits, rfl⟩

/-- A HOST byte is left by an abandoned command unless it may land there. -/
theorem State.memGet_landTorn (s : State) (landed : List Nat) (p : Port) (m : Memory) (a : Nat) :
    memGet hostFill (s.landTorn landed p m) a = memGet hostFill m a ∨ s.MayLand landed p a := by
  rcases s.landTorn_cases landed p m with heq | ⟨cmd, base, v, hcmd, hrange, -, heq⟩
  · exact .inl (by rw [heq])
  · rw [heq, memGet_landBytes]
    split
    case isTrue h => exact .inr ⟨h.2.2, cmd, _, hcmd, hrange, h.1, h.2.1⟩
    case isFalse => exact .inl rfl

/-- Every HOST byte stays through a reset unless some abandoned command's byte lands there. -/
theorem State.blockReset_hostByte (s : State) (landed : List Nat) (a : Nat) :
    (s.blockReset landed).hostByte a = s.hostByte a ∨ ∃ p, s.MayLand landed p a := by
  rcases s.memGet_landTorn landed .config s.host a with hK | hK
  case inr => exact .inr ⟨.config, hK⟩
  rcases s.memGet_landTorn landed .consumer (s.landTorn landed .config s.host) a with hC | hC
  case inr => exact .inr ⟨.consumer, hC⟩
  rcases s.memGet_landTorn landed .producer (s.landTorn landed .consumer (s.landTorn landed .config s.host)) a with
    hP | hP
  case inr => exact .inr ⟨.producer, hP⟩
  exact .inl (hP.trans (hC.trans hK))

/-- Settles O51. -/
theorem resetEvent : Obligations.ResetEvent := by
  intro s landed es hschedule
  refine ⟨_, step_of_reset hschedule, rfl, fun a => ?_⟩
  refine (State.blockReset_hostByte _ landed a).imp_right ?_
  rintro ⟨p, hlanded, cmd, r, hcmd, hr⟩
  exact ⟨hlanded, p, cmd, r, by cases p <;> exact hcmd, hr⟩

end Sys2Proof.Machine
end

section
/-! PROOF. All that one step can do (spec/00_scope.md R15, spec/60_exceptions.md R290): the labelled steps of the 22
commands as one relation, and a step of the machine as one of four kinds. Every invariant's proof starts from here. -/

namespace Sys2Proof.Machine

/-! The pushes and the copies. -/

/-- A COPYF or COPYW of `n` bytes from `src` to `dst`. -/
def Copies (i : Instr) (dst src n : Word) : Prop := ∃ p, i = .copyf p dst src n ∨ i = .copyw p dst src n

/-- The three converting pushes (R221, R230, R236). -/
inductive IsConverting : Converting → Prop where
  | push24 (src len : Word) : IsConverting (push24Converting src len)
  | push16 (src len : Word) : IsConverting (push16Converting src len)
  | pushdsd (src len : Word) (channels : Byte) (rev swap : Bool) :
    IsConverting (pushdsdConverting src len channels rev swap)

/-- The four commands that append bytes to the ring in several steps (R184, R220). -/
inductive IsPush : Instr → Prop where
  | push (src len : Word) : IsPush (.push src len)
  | converting {k : Converting} (hk : IsConverting k) : IsPush k.instr

section
variable {k : Converting} {i : Instr} {s : State} {w : Word} {n : Nat}

theorem IsConverting.port (hk : IsConverting k) : k.instr.port = .producer := by cases hk <;> rfl

theorem IsPush.port (hi : IsPush i) : i.port = .producer := by
  cases hi with
  | push src len => rfl
  | converting hk => exact hk.port

/-- The ring bytes of a count of units. -/
theorem IsConverting.ringCount (hk : IsConverting k) (w : Word) (n : Nat) :
    (Command.mk k.instr (.move w n)).ringCount = k.uout * n ∧
      (Command.mk k.instr (.transfer w n)).ringCount = k.uout * n ∧
      (Command.mk k.instr (.publish w n)).ringCount = k.uout * n := by
  cases hk <;> exact ⟨rfl, rfl, rfl⟩

/-- A count is as legal at a converting push's later steps as at its first. -/
theorem IsConverting.legal (hk : IsConverting k) (w : Word) (n : Nat) :
    (Command.mk k.instr (.transfer w n)).legal = (Command.mk k.instr (.move w n)).legal ∧
      (Command.mk k.instr (.publish w n)).legal = (Command.mk k.instr (.move w n)).legal := by
  cases hk <;> exact ⟨rfl, rfl⟩

/-- A legal count of units, in numbers. -/
theorem IsConverting.legal_move_iff (hk : IsConverting k) : (Command.mk k.instr (.move w n)).legal = true ↔
    0 < k.uin ∧ 0 < n ∧ k.uin * n ≤ k.len.toNat ∧ k.uout * n ≤ stagingSize := by
  cases hk with
  | push24 src len => simp [Command.legal, push24Converting]
  | push16 src len => simp [Command.legal, push16Converting]
  | pushdsd src len channels rev swap =>
    have hchannels : channels ≠ 0 ↔ 0 < 4 * channels.toNat := by
      have hzero : (0 : Byte).toNat = 0 := rfl
      rw [Ne, ← BitVec.toNat_inj, hzero]
      omega
    simp only [Command.legal, pushdsdConverting, decide_eq_true_eq, hchannels]

/-- The output of `n` units fills `n` units. -/
theorem IsConverting.length_convert (hk : IsConverting k) (n : Nat) (s : State) :
    (k.convert n s).2.length = k.uout * n := by
  cases hk with
  | push24 src len =>
    rw [push24Converting, convert24_snd]
    exact (pack24_bytes s src.toNat n _).1
  | push16 src len => exact (up16to32_bytes s src.toNat n).1
  | pushdsd src len channels rev swap =>
    have hlen := length_dsdInterleave rev swap fun _ hb =>
      length_of_mem_planarBlocks (src := src) (len := len) (channels := channels) (g := n) (s := s) hb
    rwa [length_planarBlocks] at hlen

/-- A conversion changes the S24 state alone, and only PUSH24's does that. -/
theorem IsConverting.frame (hk : IsConverting k) (n : Nat) (s : State) : S24Frame s (k.convert n s).1 := by
  cases hk with
  | push24 src len => exact convert24_frame src n s
  | push16 src len | pushdsd src len channels rev swap => rfl

end

/-! The labelled steps. -/

/-- `LabelledStep s i t`: in state `s` the command `i` has a next labelled step, and `t` is the state it leaves. -/
inductive LabelledStep (s : State) : Instr → State → Prop where
  /-- A first step that answers at once and changes nothing else. -/
  | answered {i r} (hfree : s.portFree i.port) : LabelledStep s i (s.finish i.port r)
  /-- s1 of a copy whose ranges overlap (R144). -/
  | copyOverlap {i} (hcopy : OverlappingCopy i) (hfree : s.portFree i.port) :
    LabelledStep s i
      ({ s with fatal := true, fatalCode := copyOverlapCode }.finish i.port (fatalResponse copyOverlapCode))
  /-- s1 of a copy. -/
  | copyStart {i dst src n} (hcopy : Copies i dst src n) (hfree : s.portFree i.port)
      (hover : overlap dst src n = false) : LabelledStep s i (s.goTo i .copyMove)
  /-- s2 of a copy (R145, R148). -/
  | copyMove {i dst src n m} (hcopy : Copies i dst src n) (hat : s.atStage i .copyMove)
      (hwf : Memory.wf hostFill hostSize s.host = true → Memory.wf hostFill hostSize m = true) :
    LabelledStep s i ({ s with host := m }.goTo i .copyDone)
  /-- s3 of a copy. -/
  | copyDone {i dst src n r} (hcopy : Copies i dst src n) (hat : s.atStage i .copyDone) : LabelledStep s i (s.finish i.port r)
  /-- s1 of a push: its bytes fit the free area. -/
  | pushStart {i n} (hpush : IsPush i) (hfree : s.portFree .producer) (hphase : s.phaseP = .guarded)
      (hlegal : (Command.mk i (.move s.wp n)).legal = true)
      (hfit : (Command.mk i (.move s.wp n)).ringCount ≤ s.free.toNat) : LabelledStep s i (s.goTo i (.move s.wp n))
  /-- s2 of PUSH (R184). -/
  | pushMove {src len w n v m} (hat : s.atStage (.push src len) (.move w n))
      (hput : s.ringPut w v = some { s with ring := m }) (hlen : v.length = n) :
    LabelledStep s (.push src len) ({ s with ring := m }.goTo (.push src len) (.publish w n))
  /-- s2 of a converting push (R220). -/
  | convert {k w n mode confirmed count} (hk : IsConverting k) (hat : s.atStage k.instr (.move w n))
      (hconv : (k.convert n s).1 =
        { s with s24Mode := mode, s24Confirmed := confirmed, s24SilentCount := count })
      (hfits : (k.convert n s).2.length ≤ stagingSize) :
    LabelledStep s k.instr
      (({ s with s24Mode := mode, s24Confirmed := confirmed, s24SilentCount := count }.setStg k.buf
          (memWrite stagingFill (s.stg k.buf) 0 (k.convert n s).2)).goTo k.instr (.transfer w n))
  /-- s3 of a converting push. -/
  | transfer {k w n v m} (hk : IsConverting k) (hat : s.atStage k.instr (.transfer w n))
      (hput : s.ringPut w v = some { s with ring := m }) (hlen : v.length = k.uout * n) :
    LabelledStep s k.instr ({ s with ring := m }.goTo k.instr (.publish w n))
  /-- The last step of a push. -/
  | publish {i w n r} (hpush : IsPush i) (hat : s.atStage i (.publish w n)) :
    LabelledStep s i
      ({ s with wp := advancePos s.mask w (Command.mk i (.publish w n)).ringCount }.finish .producer r)
  /-- s1 of POP (R186). -/
  | popStart {dst len n} (hfree : s.portFree .consumer) (hphase : s.phaseC = .guarded) (hpos : 0 < n)
      (hlen : n ≤ len.toNat) (hfit : n ≤ s.avail.toNat) :
    LabelledStep s (.pop dst len) (s.goTo (.pop dst len) (.move s.rp n))
  /-- s2 of POP. -/
  | popMove {dst len r n v} (hat : s.atStage (.pop dst len) (.move r n)) (hget : s.ringGet r n = some v)
      (hin : dst.toNat + v.length ≤ hostSize) :
    LabelledStep s (.pop dst len) ((s.memWriteHost dst.toNat v).goTo (.pop dst len) (.publish r n))
  /-- s3 of POP. -/
  | popPublish {dst len r n a} (hat : s.atStage (.pop dst len) (.publish r n)) :
    LabelledStep s (.pop dst len) ({ s with rp := advancePos s.mask r n }.finish .consumer a)
  /-- WRGN (R188). -/
  | wrgn {needed r} (hfree : s.portFree .producer) (hphase : s.phaseP = .guarded) :
    LabelledStep s (.wrgn needed)
      ({ s with wregion := some ⟨s.wp, s.contiguousFree⟩, winWritten := [], phaseP := .region }.finish .producer r)
  /-- WCOMMIT (R189). -/
  | wcommit {written g r} (hfree : s.portFree .producer) (hphase : s.phaseP = .region) (hregion : s.wregion = some g)
      (hlen : written.toNat ≤ g.len) :
    LabelledStep s (.wcommit written)
      ({ s with
          wp := advancePos s.mask g.base written.toNat, wregion := none, winWritten := []
          phaseP := .guarded }.finish .producer r)
  /-- RRGN (R192). -/
  | rrgn {needed r} (hfree : s.portFree .consumer) (hphase : s.phaseC = .guarded) :
    LabelledStep s (.rrgn needed)
      ({ s with rregion := some ⟨s.rp, s.contiguousAvail⟩, phaseC := .region }.finish .consumer r)
  /-- RADV (R193). -/
  | radv {bytes g r} (hfree : s.portFree .consumer) (hphase : s.phaseC = .region) (hregion : s.rregion = some g)
      (hlen : bytes.toNat ≤ g.len) :
    LabelledStep s (.radv bytes)
      ({ s with rp := advancePos s.mask g.base bytes.toNat, rregion := none, phaseC := .guarded }.finish .consumer r)
  /-- RESIZE (R182). -/
  | resize {capacity silenceByte r} (hfree : s.portFree .config) (hexcl : s.phaseK = .excl) :
    LabelledStep s (.resize capacity silenceByte)
      ({ s with
          sizeLog2 := BitVec.ofNat 6 (clog2 capacity.toNat), silence := silenceByte }.emptyRing.s24Reset.finish
        .config r)
  /-- CLEAR (R183). -/
  | clear {r} (hfree : s.portFree .config) (hexcl : s.phaseK = .excl) :
    LabelledStep s .clear (s.emptyRing.s24Reset.finish .config r)
  /-- S24HINT (R227). -/
  | hint {p hint r} (hfree : s.portFree p) (hp : p ≠ .consumer) (hneed : s.needHint p = none) :
    LabelledStep s (.s24hint p hint)
      ({ s with
          s24Hint := hint
          s24Mode := if s.s24Mode.unresolved then (S24Hint.mode hint).getD s.s24Mode else s.s24Mode }.finish p r)
  /-- g1 of GENTER (R251). -/
  | genterStart {p} (hfree : s.portFree p.port) (hidle : s.phase p = .idle) :
    LabelledStep s (.genter p) (s.goTo (.genter p) .g2)
  /-- g2 of GENTER. -/
  | genterCount {p} (hat : s.atStage (.genter p) .g2) : LabelledStep s (.genter p) (s.incUsers.goTo (.genter p) .g3)
  /-- g3 of GENTER. -/
  | genterCheck {p} (hat : s.atStage (.genter p) .g3) :
    LabelledStep s (.genter p) (s.goTo (.genter p) (.g4 s.reconfig))
  /-- g4 of GENTER after a re-check that found the flag set. -/
  | genterUndo {p r} (hat : s.atStage (.genter p) (.g4 true)) :
    LabelledStep s (.genter p) (s.decUsers.finish p.port r)
  /-- g4 of GENTER after a re-check that found the flag clear. -/
  | genterRegister {p r} (hat : s.atStage (.genter p) (.g4 false)) :
    LabelledStep s (.genter p) ((s.setGuard p true .guarded).finish p.port r)
  /-- GEXIT (R254). -/
  | gexit {p r} (hfree : s.portFree p.port) (hphase : s.phase p ≠ .region) :
    LabelledStep s (.gexit p)
      (({ s with activeUsers := if s.reg p then s.activeUsers - 1 else s.activeUsers }.setGuard p false .idle).finish
        p.port r)
  /-- r1 of RENTER (R256). -/
  | renterStart (hfree : s.portFree .config) (hidle : s.phaseK = .idle) :
    LabelledStep s .renter ({ s with reconfig := true, phaseK := .waiting }.goTo .renter .r2)
  /-- A poll of RENTER that finds users still active (R258). -/
  | renterPoll (hat : s.atStage .renter .r2) : LabelledStep s .renter s
  /-- r2 of RENTER. -/
  | renterGrant {r} (hat : s.atStage .renter .r2) (hzero : s.activeUsers = 0) :
    LabelledStep s .renter ({ s with phaseK := .excl }.finish .config r)
  /-- REXIT (R260). -/
  | rexit {r} (hfree : s.portFree .config) (hexcl : s.phaseK = .excl) :
    LabelledStep s .rexit ({ s with reconfig := false, phaseK := .idle }.finish .config r)
  /-- A field store of SETFMT (R262), its first step's included. -/
  | fmtStore {f pending x}
      (hplace : (s.portFree .config ∧ s.phaseK = .excl ∧ pending = allFmtFields) ∨
        s.atStage (.setfmt f) (.fmtStore pending)) (hx : x ∈ pending) :
    LabelledStep s (.setfmt f)
      ({ s with fmt := storeField s.fmt f x }.goTo (.setfmt f) (.fmtStore (pending.erase x)))
  /-- The last step of SETFMT. -/
  | fmtDone {f r} (hat : s.atStage (.setfmt f) (.fmtStore [])) :
    LabelledStep s (.setfmt f) ({ s with fmtGen := s.fmtGen + 1 }.finish .config r)

/-! Whatever a command answers is one of its labelled steps. -/

section
variable {s t : State}

theorem labelledStep_of_copyCommand {i : Instr} {dst src n : Word} {moved : State → Memory}
    (hcopy : Copies i dst src n)
    (hmoved : ∀ {s : State}, Memory.wf hostFill hostSize s.host = true → dst.toNat + n.toNat ≤ hostSize →
      Memory.wf hostFill hostSize (moved s) = true)
    (h : copyCommand i dst src n moved s = .next t) : LabelledStep s i t := by
  rcases copyCommand_next h with ⟨hfree, hover, rfl⟩ | ⟨hfree, hover, rfl⟩ | ⟨hat, hhost, rfl⟩ | ⟨hat, rfl⟩
  · obtain ⟨p, hp⟩ := hcopy
    exact .copyOverlap ⟨p, dst, src, n, hover, hp⟩ hfree
  · exact .copyStart hcopy hfree hover
  · exact .copyMove hcopy hat fun hwf => hmoved hwf (State.write_in_host hhost)
  · exact .copyDone hcopy hat

theorem labelledStep_of_execPush {src len : Word} (h : execPush src len s = .next t) :
    LabelledStep s (.push src len) t := by
  rcases execPush_next h with ⟨hfree, -, -, rfl⟩ | ⟨hfree, hphase, hpos, rfl⟩ | ⟨w, n, u, hat, -, hput, rfl⟩ |
    ⟨w, n, hat, rfl⟩
  · exact .answered hfree
  · exact .pushStart (.push src len) hfree hphase (decide_eq_true ⟨hpos, Nat.min_le_left ..⟩) (Nat.min_le_right ..)
  · have hframe := (s.ringPut_frame u w _ hput).1
    rw [hframe] at hput ⊢
    exact .pushMove hat hput (s.memReadHost_length ..)
  · exact .publish (.push src len) hat

theorem labelledStep_of_convertPush {k : Converting} (hk : IsConverting k) (h : convertPush k s = .next t) :
    LabelledStep s k.instr t := by
  rcases convertPush_next hk.port h with ⟨hfree, -, -, rfl⟩ | ⟨hfree, hphase, hpos, rfl⟩ |
    ⟨w, n, u, hat, -, hstg, rfl⟩ | ⟨w, n, out, u, hat, hread, hput, rfl⟩ | ⟨w, n, hat, rfl⟩
  · have hanswer := LabelledStep.answered (i := k.instr) (r := done 0 0) (s := s) (hk.port ▸ hfree)
    rwa [hk.port] at hanswer
  · obtain ⟨hin, -, hlen, hstg, hfree'⟩ := bound_fits rfl hpos
    exact .pushStart (.converting hk) hfree hphase (hk.legal_move_iff.2 ⟨hin, hpos, hlen, hstg⟩)
      ((hk.ringCount _ _).1.trans_le hfree')
  · have hconv := (hk.frame n s).eq
    obtain ⟨hfits, rfl⟩ := (State.stgWrite_eq_some _ u _ _ _).1 hstg
    have hstep := LabelledStep.convert hk hat hconv (by omega)
    rw [← hconv] at hstep
    rwa [show (k.convert n s).1.stg k.buf = s.stg k.buf by rw [hconv]; cases k.buf <;> rfl]
  · obtain ⟨-, rfl⟩ := (s.stgRead_eq_some _ _ _ _).1 hread
    have hframe := (s.ringPut_frame u w _ hput).1
    rw [hframe] at hput ⊢
    exact .transfer hk hat hput (by simp)
  · have hlast := LabelledStep.publish (r := done (BitVec.ofNat 32 (k.uin * n)) 0) (.converting hk) hat
    rwa [(hk.ringCount w n).2.2] at hlast

theorem labelledStep_of_execPop {dst len : Word} (h : execPop dst len s = .next t) :
    LabelledStep s (.pop dst len) t := by
  rcases execPop_next h with ⟨hfree, -, -, rfl⟩ | ⟨hfree, hphase, hpos, rfl⟩ | ⟨r, n, v, hat, hhost, hget, rfl⟩ |
    ⟨r, n, hat, rfl⟩
  · exact .answered hfree
  · exact .popStart hfree hphase hpos (Nat.min_le_left ..) (Nat.min_le_right ..)
  · exact .popMove hat hget (by rw [s.ringGet_length r n v hget]; exact State.write_in_host hhost)
  · exact .popPublish hat

theorem labelledStep_of_execGenter {p : DataPort} (h : execGenter p s = .next t) : LabelledStep s (.genter p) t := by
  rcases execGenter_next h with ⟨hfree, -, -, rfl⟩ | ⟨hfree, hidle, -, rfl⟩ | ⟨hat, rfl⟩ | ⟨hat, rfl⟩ | ⟨hat, rfl⟩ |
    ⟨hat, rfl⟩
  · exact .answered hfree
  · exact .genterStart hfree hidle
  · exact .genterCount hat
  · exact .genterCheck hat
  · exact .genterUndo hat
  · exact .genterRegister hat

theorem labelledStep_of_execRenter (h : execRenter s = .next t) : LabelledStep s .renter t := by
  rcases execRenter_next h with ⟨hfree, hidle, -, rfl⟩ | ⟨hat, hzero, rfl⟩ | ⟨hat, -, rfl⟩
  · exact .renterStart hfree hidle
  · exact .renterGrant hat hzero
  · exact .renterPoll hat

theorem labelledStep_of_execSetfmt {f : Format} (h : execSetfmt f s = .next t) : LabelledStep s (.setfmt f) t := by
  rcases execSetfmt_next h with ⟨hfree, hexcl, x, hx, rfl⟩ | ⟨pending, hat, x, hx, rfl⟩ | ⟨hat, rfl⟩
  · exact .fmtStore (.inl ⟨hfree, hexcl, rfl⟩) hx
  · exact .fmtStore (.inr hat) hx
  · exact .fmtDone hat

theorem labelledStep_of_exec {i : Instr} (h : exec i s = .next t) : LabelledStep s i t := by
  cases i with
  | copyf p dst src n =>
    rw [exec, execCopyf] at h
    refine labelledStep_of_copyCommand ⟨p, .inl rfl⟩ (fun hwf hin => ?_) h
    exact copyFixed_wf hwf (by rwa [State.memReadHost_length])
  | copyw p dst src n =>
    rw [exec, execCopyw] at h
    refine labelledStep_of_copyCommand ⟨p, .inr rfl⟩ (fun hwf hin => ?_) h
    exact memWrite_wf _ _ _ _ _ hwf (by rwa [State.memReadHost_length])
  | push src len => exact labelledStep_of_execPush h
  | pop dst len => exact labelledStep_of_execPop h
  | wrgn needed =>
    obtain ⟨hfree, hphase, ⟨-, rfl⟩ | ⟨-, rfl⟩⟩ := execWrgn_next h
    · exact .answered hfree
    · exact .wrgn hfree hphase
  | wcommit written =>
    obtain ⟨hfree, hphase, g, hregion, hlen, -, rfl⟩ := execWcommit_next h
    exact .wcommit hfree hphase hregion hlen
  | rrgn needed =>
    obtain ⟨hfree, hphase, ⟨-, rfl⟩ | ⟨-, rfl⟩⟩ := execRrgn_next h
    · exact .answered hfree
    · exact .rrgn hfree hphase
  | radv bytes =>
    obtain ⟨hfree, hphase, g, hregion, hlen, rfl⟩ := execRadv_next h
    exact .radv hfree hphase hregion hlen
  | avail p => obtain ⟨hfree, -, rfl⟩ := snapshot_next h; exact .answered hfree
  | free p => obtain ⟨hfree, -, rfl⟩ := snapshot_next h; exact .answered hfree
  | resize capacity silenceByte => obtain ⟨hfree, hexcl, rfl⟩ := underExcl_next h; exact .resize hfree hexcl
  | clear => obtain ⟨hfree, hexcl, rfl⟩ := underExcl_next h; exact .clear hfree hexcl
  | push24 src len => exact labelledStep_of_convertPush (.push24 src len) h
  | push16 src len => exact labelledStep_of_convertPush (.push16 src len) h
  | pushdsd src len channels rev swap => exact labelledStep_of_convertPush (.pushdsd src len channels rev swap) h
  | s24hint p hint =>
    obtain ⟨hfree, ⟨-, rfl⟩ | ⟨hp, hneed, rfl⟩⟩ := execS24hint_next h
    · exact .answered (i := .s24hint p hint) hfree
    · exact .hint hfree hp hneed
  | genter p => exact labelledStep_of_execGenter h
  | gexit p =>
    obtain ⟨hfree, hphase, rfl⟩ := execGexit_next h
    rw [State.ite_decUsers]
    exact .gexit hfree hphase
  | renter => exact labelledStep_of_execRenter h
  | rexit => obtain ⟨hfree, hexcl, rfl⟩ := underExcl_next h; exact .rexit hfree hexcl
  | setfmt f => exact labelledStep_of_execSetfmt h
  | rdreg p reg => obtain ⟨hfree, rfl⟩ := execRdreg_next h; exact .answered (i := .rdreg p reg) hfree

end

/-! A step of the machine. -/

/-- `t` differs from `s` only in what is not the block's: HOST memory, the streams and last responses of the ports, the
window's bytes, and the schedule. Whatever HOST memory is written keeps its canonical form. -/
structure Outside (s t : State) : Prop where
  frame : t = { s with
    host := t.host, laneP := t.laneP, laneC := t.laneC, laneK := t.laneK, window := t.window, choice := t.choice
    schedule := t.schedule }
  inflight : ∀ p, (t.lane p).inflight = (s.lane p).inflight
  host : Memory.wf hostFill hostSize s.host = true → Memory.wf hostFill hostSize t.host = true

theorem Outside.refl (s : State) : Outside s s := ⟨rfl, fun _ => rfl, id⟩

theorem Outside.trans {s t u : State} (h : Outside s t) (h' : Outside t u) : Outside s u where
  frame := h'.frame.trans (by rw [h.frame])
  inflight p := (h'.inflight p).trans (h.inflight p)
  host hwf := h'.host (h.host hwf)

theorem outside_schedule_choice (s : State) (es : List Event) (c : Nat) :
    Outside s { s with schedule := es, choice := c } where
  frame := rfl
  inflight p := by cases p <;> rfl
  host := id

theorem outside_schedule (s : State) (es : List Event) : Outside s { s with schedule := es } :=
  outside_schedule_choice s es s.choice

/-- A descriptor taken from a port with nothing in flight, answered or not. -/
theorem outside_setLane {s : State} {p : Port} (h : (s.lane p).inflight = none) (ds : List Descriptor)
    (r : Option Response) : Outside s (s.setLane p ⟨ds, none, r⟩) where
  frame := by cases p <;> rfl
  inflight q := by
    by_cases hq : q = p
    · rw [hq, State.setLane_lane_same, h]
    · rw [State.setLane_lane_other s p q _ hq]
  host hwf := by rwa [State.setLane_host]

theorem outside_memWriteHost {s : State} {a : Nat} {v : List Byte} (h : a + v.length ≤ hostSize) :
    Outside s (s.memWriteHost a v) where
  frame := rfl
  inflight p := by rw [State.memWriteHost_lane]
  host hwf := memWrite_wf _ _ _ _ _ hwf h

/-- Decoding has accepted `i`, or `i` is already in flight on its port. -/
def State.Issued (s : State) (i : Instr) : Prop := i.wf s.cfg = true ∨ (s.lane i.port).inflight ≠ none

/-- A port's turn makes a labelled step of the command in flight or next, or none. -/
theorem turn_cases {s t : State} {p : Port} {c : Nat} {es : List Event} (hschedule : s.schedule = .turn p c :: es)
    (h : turn p { s with schedule := es, choice := c } = .next t) :
    Outside s t ∨ ∃ s₀ i, Outside s s₀ ∧ s.nextCommand = some i ∧ (s.LanesInv → s₀.Issued i) ∧
      LabelledStep s₀ i t := by
  have hlane := s.lane_with_schedule_choice es c p
  have hout := outside_schedule_choice s es c
  rcases turn_next h with ⟨cmd, hcmd, hexec⟩ | ⟨-, -, rfl⟩ | ⟨d, ds, hnone, -, -, rfl⟩ |
    ⟨d, ds, e, hnone, -, -, -, rfl⟩ | ⟨d, ds, i, hnone, hstream, hfatal, hdecode, hexec⟩
  · have hcmd' := (congrArg Lane.inflight hlane).symm.trans hcmd
    refine .inr ⟨_, cmd.instr, hout, ?_, fun hlanes => .inr ?_, labelledStep_of_exec hexec⟩
    · simp [State.nextCommand, hschedule, hcmd']
    · rw [(hlanes p cmd hcmd').1, hcmd]
      exact Option.some_ne_none cmd
  · exact .inl hout
  · rw [State.setLane_finish]
    exact .inl (hout.trans (outside_setLane hnone ds _))
  · rw [State.setLane_finish]
    exact .inl (hout.trans (outside_setLane hnone ds _))
  · have hwf := (encodeDecodeRoundTrip _ p d i hdecode).2.2
    rw [hlane] at hnone hstream
    refine .inr ⟨_, i, hout.trans (outside_setLane (by rwa [hlane]) ds none),
      State.nextCommand_of_decode hschedule hnone hstream hfatal hdecode, fun _ => .inl ?_, labelledStep_of_exec hexec⟩
    rwa [State.setLane_cfg]

/-- All that one step of the machine can be: none of the block's, a command's labelled step, a window write, or a
reset. -/
theorem step_cases {s t : State} (h : step s = .next t) :
    Outside s t ∨
    (∃ s₀ i, Outside s s₀ ∧ s.nextCommand = some i ∧ (s.LanesInv → s₀.Issued i) ∧ LabelledStep s₀ i t) ∨
    (∃ s₀ off v, Outside s s₀ ∧ winWrite off v s₀ = .next t) ∨
    (s.resetNext ∧ ∃ s₀ landed, Outside s s₀ ∧ t = s₀.blockReset landed) := by
  obtain ⟨-, rfl⟩ | ⟨e, es, hschedule, hhandle⟩ := step_next h
  · exact .inl (.refl t)
  have hout := outside_schedule s es
  cases e with
  | turn p c => exact (turn_cases hschedule hhandle).imp_right .inl
  | winWrite off v => exact .inr (.inr (.inl ⟨_, off, v, hout, hhandle⟩))
  | winRead off n =>
    obtain ⟨-, -, v, -, rfl⟩ := winRead_next hhandle
    exact .inl ⟨rfl, fun p => by cases p <;> rfl, id⟩
  | hostStore addr v =>
    obtain ⟨hin, rfl⟩ := hostStore_next hhandle
    exact .inl (hout.trans (outside_memWriteHost hin))
  | reset landed =>
    cases hhandle
    exact .inr (.inr (.inr ⟨⟨landed, es, hschedule⟩, _, landed, hout, rfl⟩))

/-- A window write changes the ring and the record of window writes, inside the open region. -/
theorem winWrite_cases {s t : State} {off : Word} {v : List Byte} (h : winWrite off v s = .next t) :
    s.phaseP = .region ∧ off.toNat + v.length ≤ s.size ∧
      (∃ g, s.wregion = some g ∧ g.base.toNat ≤ off.toNat ∧ off.toNat + v.length ≤ g.base.toNat + g.len) ∧
      t = { s with
        ring := memWrite s.silence s.ring off.toNat v, winWritten := addOffsets s.winWritten off.toNat v.length } := by
  obtain ⟨hphase, hinside, u, hwrite, rfl⟩ := winWrite_next h
  obtain ⟨hsize, rfl⟩ := (s.ringWrite_eq_some u _ _).1 hwrite
  exact ⟨hphase, hsize, insideRegion_iff.1 hinside, rfl⟩

/-- The step principle: a property that rests on the block alone is kept by every step if the labelled steps, the
window writes and reset keep it. -/
theorem step_keeps {I : State → Prop} {s t : State} (hout : ∀ {s t}, Outside s t → I s → I t)
    (hcommand : ∀ {s i t}, LabelledStep s i t → I s → I t)
    (hwrite : ∀ {s t : State} {off : Word} {v : List Byte}, winWrite off v s = .next t → I s → I t)
    (hreset : ∀ {s : State} (landed : List Nat), I s → I (s.blockReset landed)) (hs : I s) (h : step s = .next t) :
    I t := by
  rcases step_cases h with ho | ⟨s₀, i, ho, -, -, hstep⟩ | ⟨s₀, off, v, ho, hw⟩ | ⟨-, s₀, landed, ho, rfl⟩
  · exact hout ho hs
  · exact hcommand hstep (hout ho hs)
  · exact hwrite hw (hout ho hs)
  · exact hreset landed (hout ho hs)

end Sys2Proof.Machine
end

section
/-! PROOF. How many labelled steps a command makes (spec/70_reset_and_hazards.md R341). -/

namespace Sys2Proof.Machine

section
variable {s t : State} {i : Instr} {p : Port} {st : Stage} {r : Response}

theorem State.portFree_finish : (s.finish p r).portFree p := by simp [State.portFree]

theorem State.atStage_goTo : (s.goTo i st).atStage i st := by simp [State.atStage]

theorem State.not_atStage_of_portFree (h : s.portFree i.port) : ¬ s.atStage i st := by
  simp [State.atStage, State.portFree.eq_1 s i.port ▸ h]

theorem State.atStage_unique {st' : Stage} (h : s.atStage i st) (h' : s.atStage i st') : st = st' := by
  have heq := Option.some.inj (h.symm.trans h')
  exact (Command.mk.inj heq).2

end

/-- The steps a command may still have to make after its first (R341); SETFMT's ten are log 13's. -/
def stepsAfterFirst : Instr → Nat
  | .setfmt _ => 10
  | _ => 3

/-- The steps left after a push's first are at most 3, and each further step leaves fewer. -/
theorem IsConverting.stepsLeft {k : Converting} (hk : IsConverting k) (w : Word) (n : Nat) :
    (Command.mk k.instr (.move w n)).stepsLeft = 3 ∧ (Command.mk k.instr (.transfer w n)).stepsLeft = 2 ∧
      (Command.mk k.instr (.publish w n)).stepsLeft = 1 ∧ stepsAfterFirst k.instr = 3 := by
  cases hk <;> exact ⟨rfl, rfl, rfl, rfl⟩

theorem IsPush.stepsLeft_move_le {i : Instr} (hi : IsPush i) (w : Word) (n : Nat) :
    (Command.mk i (.move w n)).stepsLeft ≤ stepsAfterFirst i := by
  cases hi with
  | push src len => simp [Command.stepsLeft, stepsAfterFirst]
  | converting hk =>
    obtain ⟨hmove, -, -, hfirst⟩ := hk.stepsLeft w n
    rw [hmove, hfirst]

theorem Copies.stepsLeft {i : Instr} {dst src n : Word} (hi : Copies i dst src n) :
    (Command.mk i .copyMove).stepsLeft = 2 ∧ (Command.mk i .copyDone).stepsLeft = 1 ∧ stepsAfterFirst i = 3 := by
  obtain ⟨p, rfl | rfl⟩ := hi <;> exact ⟨rfl, rfl, rfl⟩

/-- A labelled step answers its command or goes on: a first step with a bounded number to come, a further one with
fewer, but for a poll of RENTER. -/
theorem LabelledStep.progress {s t : State} {i : Instr} (h : LabelledStep s i t) :
    t.portFree i.port ∨ (i = .renter ∧ s.atStage i .r2 ∧ t = s) ∨ ∃ st, t.atStage i st ∧
      ((s.portFree i.port ∧ (Command.mk i st).stepsLeft ≤ stepsAfterFirst i) ∨
        ∃ st', s.atStage i st' ∧ (Command.mk i st).stepsLeft < (Command.mk i st').stepsLeft) := by
  cases h with
  | renterPoll hat => exact .inr (.inl ⟨rfl, hat, rfl⟩)
  | copyStart hcopy hfree =>
    refine .inr (.inr ⟨_, State.atStage_goTo, .inl ⟨hfree, ?_⟩⟩)
    obtain ⟨hmove, -, hfirst⟩ := hcopy.stepsLeft
    omega
  | copyMove hcopy hat =>
    refine .inr (.inr ⟨_, State.atStage_goTo, .inr ⟨_, hat, ?_⟩⟩)
    obtain ⟨hmove, hdone, -⟩ := hcopy.stepsLeft
    omega
  | pushStart hpush hfree =>
    exact .inr (.inr ⟨_, State.atStage_goTo, .inl ⟨hpush.port ▸ hfree, hpush.stepsLeft_move_le _ _⟩⟩)
  | convert hk hat =>
    refine .inr (.inr ⟨_, State.atStage_goTo, .inr ⟨_, hat, ?_⟩⟩)
    obtain ⟨hmove, htransfer, -⟩ := hk.stepsLeft _ _
    rw [hmove, htransfer]
    decide
  | transfer hk hat =>
    refine .inr (.inr ⟨_, State.atStage_goTo, .inr ⟨_, hat, ?_⟩⟩)
    obtain ⟨-, htransfer, hpublish, -⟩ := hk.stepsLeft _ _
    rw [htransfer, hpublish]
    decide
  | pushMove hat | popMove hat | genterCount hat | genterCheck hat =>
    exact .inr (.inr ⟨_, State.atStage_goTo, .inr ⟨_, hat, by simp [Command.stepsLeft]⟩⟩)
  | popStart hfree | genterStart hfree | renterStart hfree =>
    exact .inr (.inr ⟨_, State.atStage_goTo, .inl ⟨hfree, by simp [Command.stepsLeft, stepsAfterFirst]⟩⟩)
  | fmtStore hplace hx =>
    refine .inr (.inr ⟨_, State.atStage_goTo, ?_⟩)
    have hlen := List.length_erase_of_mem hx
    have hpos := List.length_pos_of_mem hx
    rcases hplace with ⟨hfree, -, rfl⟩ | hat
    · refine .inl ⟨hfree, ?_⟩
      simp only [Command.stepsLeft, stepsAfterFirst, hlen]
      decide
    · refine .inr ⟨_, hat, ?_⟩
      simp only [Command.stepsLeft, hlen]
      omega
  | publish hpush => exact .inl (hpush.port ▸ State.portFree_finish)
  | _ => exact .inl State.portFree_finish

/-- Settles O56. -/
theorem boundedExecution : Obligations.BoundedExecution := by
  refine ⟨fun i s t hfree h => ?first, fun i st s t hi hat h => ?further⟩ <;>
    rcases (labelledStep_of_exec h).progress with hdone | ⟨hrenter, hat', -⟩ | ⟨st', ht, ⟨hfree', hle⟩ | ⟨st₀, hat', hlt⟩⟩
  case first.inl | further.inl => exact .inl hdone
  case first.inr.inl | first.inr.inr.inr => exact absurd hat' (State.not_atStage_of_portFree hfree)
  case first.inr.inr.inl =>
    refine .inr ⟨st', ht, hle.trans (le_of_eq ?_)⟩
    cases i <;> rfl
  case further.inr.inl => exact absurd hrenter hi
  case further.inr.inr.inl => exact absurd hat (State.not_atStage_of_portFree hfree')
  case further.inr.inr.inr =>
    rw [State.atStage_unique hat hat']
    exact .inr ⟨st', ht, hlt⟩

end Sys2Proof.Machine
end

section
/-! PROOF. The format state over one step (spec/44_guards_format.md R262; spec/10_state.md R45, R46). -/

namespace Sys2Proof.Machine

/-- A labelled step leaves the format state, unless it is SETFMT's: a field store leaves the generation counter, and
the last step adds 1 to it and leaves the fields. -/
theorem LabelledStep.format {s t : State} {i : Instr} (h : LabelledStep s i t) :
    (t.fmtGen = s.fmtGen ∧ t.fmt = s.fmt) ∨
      ((∃ f, i = .setfmt f) ∧ (t.fmtGen = s.fmtGen ∨ (t.fmtGen = s.fmtGen + 1 ∧ t.fmt = s.fmt))) := by
  cases h with
  | fmtStore => exact .inr ⟨⟨_, rfl⟩, .inl (by simp)⟩
  | fmtDone => exact .inr ⟨⟨_, rfl⟩, .inr (by simp)⟩
  | _ => exact .inl (by simp)

theorem Outside.format_eq {s t : State} (h : Outside s t) : t.fmtGen = s.fmtGen ∧ t.fmt = s.fmt := by
  rw [h.frame]
  exact ⟨rfl, rfl⟩

/-- Settles O47. -/
theorem formatChangesOnlyBySetfmt : Obligations.FormatChangesOnlyBySetfmt := by
  intro s t h
  rcases step_cases h with ho | ⟨s₀, i, ho, hnext, -, hstep⟩ | ⟨s₀, off, v, ho, hw⟩ | ⟨hreset, -⟩
  · exact .inr (.inl ho.format_eq)
  · obtain ⟨hgen, hfmt⟩ := ho.format_eq
    rw [← hgen, ← hfmt]
    refine .inr (hstep.format.imp_right ?_)
    rintro ⟨⟨f, rfl⟩, hset⟩
    exact ⟨⟨f, hnext⟩, hset⟩
  · obtain ⟨-, -, -, rfl⟩ := winWrite_cases hw
    exact .inr (.inl ho.format_eq)
  · exact .inl hreset

end Sys2Proof.Machine
end

section
/-! PROOF. The S24 state over one step (spec/10_state.md R30 to R35; spec/43_convert_push.md R224, R225, R227). -/

namespace Sys2Proof.Machine

/-! Detection and the invariant. -/

section
variable {s : State} {n : Nat}

/-- The hint, or LSB without one, is an alignment. -/
theorem hint_mode_aligned (hint : S24Hint) :
    (S24Hint.mode hint).getD .lsbAligned = .lsbAligned ∨ (S24Hint.mode hint).getD .lsbAligned = .msbAligned := by
  cases hint <;> decide

/-- Detection of at most 21845 samples while unconfirmed keeps the invariant. -/
theorem State.s24Detect_keeps_inv (h : s.S24Inv) (hunconfirmed : s.s24Confirmed = false) (hn : n ≤ 21845)
    (bytes : List Byte) : (s.s24Detect bytes n).S24Inv := by
  obtain ⟨-, hcount, hbound⟩ := h
  have hsmall : s.s24SilentCount.toNat ≤ 48000 := hcount hunconfirmed
  have hno : s.s24SilentCount.toNat + n < 2 ^ 32 := by omega
  have hsum := toNat_add_silent hno
  cases hlow : allZeroAt bytes 0 (min 32 n) <;> cases hhigh : allZeroAt bytes 3 (min 32 n)
  case false.false =>
    rw [State.s24Detect_of_ambiguous hlow hhigh]
    exact ⟨fun hc => absurd hc (by simp [hunconfirmed]), hcount, hbound⟩
  case false.true =>
    rw [State.s24Detect_of_lsb hlow hhigh]
    exact ⟨fun _ => .inl rfl, fun hc => Bool.noConfusion hc, hbound⟩
  case true.false =>
    rw [State.s24Detect_of_msb hlow hhigh]
    exact ⟨fun _ => .inr rfl, fun hc => Bool.noConfusion hc, hbound⟩
  case true.true =>
    rw [State.s24Detect_of_silence hlow hhigh]
    rcases Nat.lt_or_ge 48000 (s.s24SilentCount.toNat + n) with htimeout | hcounting
    · rw [State.s24Silence_of_timeout hno htimeout]
      refine ⟨fun _ => hint_mode_aligned s.s24Hint, fun hc => Bool.noConfusion hc, ?_⟩
      simp only [hsum, s24SilenceTimeout]
      omega
    · rw [State.s24Silence_of_counting hno hcounting]
      refine ⟨fun hc => absurd hc (by simp [hunconfirmed]), fun _ => ?_, ?_⟩ <;>
        simp only [hsum, s24SilenceTimeout] <;> omega

/-- A conversion of a legal count keeps the invariant. -/
theorem IsConverting.keeps_s24Inv {k : Converting} (hk : IsConverting k) {w : Word} (h : s.S24Inv)
    (hlegal : (Command.mk k.instr (.move w n)).legal = true) : (k.convert n s).1.S24Inv := by
  have hfits := (hk.legal_move_iff.1 hlegal).2.2.2
  cases hk with
  | push24 src len =>
    simp only [push24Converting, stagingSize] at hfits ⊢
    cases hc : s.s24Confirmed with
    | true => rwa [convert24_fst_of_confirmed hc]
    | false =>
      rw [convert24_fst_of_unconfirmed hc]
      exact State.s24Detect_keeps_inv h hc (by omega) _
  | push16 src len | pushdsd src len channels rev swap => exact h

end

/-- Once the alignment is confirmed, a conversion changes no state (R221). -/
theorem IsConverting.convert_of_confirmed {k : Converting} (hk : IsConverting k) {s : State} {n : Nat}
    (h : s.s24Confirmed = true) : (k.convert n s).1 = s := by
  cases hk with
  | push24 src len => exact convert24_fst_of_confirmed h
  | push16 src len | pushdsd src len channels rev swap => rfl

/-- A confirmed mode is resolved. -/
theorem State.S24Inv.resolved {s : State} (h : s.S24Inv) (hc : s.s24Confirmed = true) :
    s.s24Mode.unresolved = false := by
  rcases h.1 hc with hm | hm <;> rw [hm] <;> rfl

/-- A labelled step keeps the S24 invariant. -/
theorem LabelledStep.keeps_s24Inv {s t : State} {i : Instr} (h : LabelledStep s i t) (hlanes : s.LanesInv)
    (hinv : s.S24Inv) : t.S24Inv := by
  cases h with
  | convert hk hat hconv =>
    have hnew := hk.keeps_s24Inv hinv (hlanes _ _ hat).2
    rw [hconv] at hnew
    simpa [State.S24Inv] using hnew
  | resize | clear => simp [State.S24Inv, State.s24Reset]
  | hint hfree hp hneed =>
    obtain ⟨haligned, hrest⟩ := hinv
    simp only [State.S24Inv, State.finish_s24Mode, State.finish_s24Confirmed, State.finish_s24SilentCount]
    refine ⟨fun hc => ?_, hrest⟩
    rw [State.S24Inv.resolved ⟨haligned, hrest⟩ hc]
    exact haligned hc
  | _ => simpa [State.S24Inv] using hinv

/-- With a confirmed alignment, only RESIZE and CLEAR change the mode or its confirmation (R225). -/
theorem LabelledStep.keeps_confirmed {s t : State} {i : Instr} (h : LabelledStep s i t) (hinv : s.S24Inv)
    (hc : s.s24Confirmed = true) :
    (t.s24Confirmed = true ∧ t.s24Mode = s.s24Mode) ∨ i = .clear ∨ ∃ c b, i = .resize c b := by
  cases h with
  | convert hk hat hconv =>
    rw [hk.convert_of_confirmed hc] at hconv
    have hmode := congrArg State.s24Mode hconv
    have hconfirmed := congrArg State.s24Confirmed hconv
    refine .inl ⟨?_, ?_⟩
    · simpa using hconfirmed.symm.trans hc
    · simpa using hmode.symm
  | resize => exact .inr (.inr ⟨_, _, rfl⟩)
  | clear => exact .inr (.inl rfl)
  | hint => exact .inl (by simp [hc, hinv.resolved hc])
  | _ => exact .inl (by simp [hc])

theorem Outside.s24_eq {s t : State} (h : Outside s t) : t.s24Mode = s.s24Mode ∧ t.s24Confirmed = s.s24Confirmed ∧
    t.s24SilentCount = s.s24SilentCount := by
  rw [h.frame]
  exact ⟨rfl, rfl, rfl⟩

theorem Outside.keeps_s24Inv {s t : State} (h : Outside s t) (hinv : s.S24Inv) : t.S24Inv := by
  obtain ⟨hmode, hconfirmed, hcount⟩ := h.s24_eq
  rwa [State.S24Inv, hmode, hconfirmed, hcount]

theorem Outside.keeps_lanesInv {s t : State} (h : Outside s t) (hinv : s.LanesInv) : t.LanesInv :=
  fun p c hc => hinv p c ((h.inflight p).symm.trans hc)

/-- Settles O37: with a confirmed alignment, what changes the mode is RESIZE, CLEAR or a reset. -/
theorem confirmedAlignmentStays : Obligations.ConfirmedAlignmentStays := by
  intro s t hinv hc h
  rcases step_cases h with ho | ⟨s₀, i, ho, hnext, -, hstep⟩ | ⟨s₀, off, v, ho, hw⟩ | ⟨hreset, -⟩
  · obtain ⟨hmode, hconfirmed, -⟩ := ho.s24_eq
    exact .inl ⟨hconfirmed.trans hc, hmode⟩
  · obtain ⟨hmode, hconfirmed, -⟩ := ho.s24_eq
    rw [← hmode, hnext]
    rcases hstep.keeps_confirmed (ho.keeps_s24Inv hinv) (hconfirmed.trans hc) with hkeep | rfl | ⟨c, b, rfl⟩
    · exact .inl hkeep
    · exact .inr (.inr (.inl rfl))
    · exact .inr (.inr (.inr ⟨c, b, rfl⟩))
  · obtain ⟨-, -, -, rfl⟩ := winWrite_cases hw
    obtain ⟨hmode, hconfirmed, -⟩ := ho.s24_eq
    exact .inl ⟨hconfirmed.trans hc, hmode⟩
  · exact .inr (.inl hreset)

theorem blockReset_s24Inv (s : State) (landed : List Nat) : (s.blockReset landed).S24Inv :=
  ⟨fun h => Bool.noConfusion h, fun _ => Nat.zero_le _, Nat.zero_le _⟩

theorem winWrite_keeps_s24Inv {s t : State} {off : Word} {v : List Byte} (h : winWrite off v s = .next t)
    (hinv : s.S24Inv) : t.S24Inv := by
  obtain ⟨-, -, -, rfl⟩ := winWrite_cases h
  exact hinv

/-- Settles O38. -/
theorem s24InvariantKept : Obligations.S24InvariantKept := by
  intro s t hlanes hinv h
  rcases step_cases h with ho | ⟨s₀, i, ho, -, -, hstep⟩ | ⟨s₀, off, v, ho, hw⟩ | ⟨-, s₀, landed, -, rfl⟩
  · exact ho.keeps_s24Inv hinv
  · exact hstep.keeps_s24Inv (ho.keeps_lanesInv hlanes) (ho.keeps_s24Inv hinv)
  · exact winWrite_keeps_s24Inv hw (ho.keeps_s24Inv hinv)
  · exact blockReset_s24Inv s₀ landed

end Sys2Proof.Machine
end

section
/-! PROOF. The canonical form of every byte storage (spec/20_memory.md R70 to R73; the model's own form, logs 5 to 7). -/

namespace Sys2Proof.Machine

@[simp] theorem State.emptyRing_ring (s : State) : s.emptyRing.ring = [] := rfl
@[simp] theorem State.emptyRing_wp (s : State) : s.emptyRing.wp = 0 := rfl
@[simp] theorem State.emptyRing_rp (s : State) : s.emptyRing.rp = 0 := rfl

/-- The storages after one staging buffer is replaced. -/
theorem State.setStg_wf {s : State} {j : StgBuf} {m : Memory} (hm : Memory.wf stagingFill stagingSize m = true)
    (h : ∀ j, Memory.wf stagingFill stagingSize (s.stg j) = true) (j' : StgBuf) :
    Memory.wf stagingFill stagingSize ((s.setStg j m).stg j') = true := by
  by_cases hj : j' = j
  · rwa [hj, State.setStg_stg_same]
  · rw [State.setStg_stg_other s j j' m hj]
    exact h j'

/-- A labelled step keeps the canonical form of every storage. -/
theorem LabelledStep.keeps_memoryInv {s t : State} {i : Instr} (h : LabelledStep s i t) (hinv : s.MemoryInv) :
    t.MemoryInv := by
  obtain ⟨hhost, hring, hstg⟩ := hinv
  cases h with
  | copyMove hcopy hat hwf => simpa [State.MemoryInv] using ⟨hwf hhost, hring, hstg⟩
  | pushMove hat hput | transfer hk hat hput =>
    have hring' := (s.ringPut_frame _ _ _ hput).2 hring
    simpa [State.MemoryInv] using ⟨hhost, hring', hstg⟩
  | @convert k w n mode confirmed count hk hat hconv hfits =>
    have hm := memWrite_wf stagingFill stagingSize _ 0 (k.convert n s).2 (hstg k.buf) (by omega)
    refine ⟨by simpa using hhost, ?_, fun j => ?_⟩
    · simp only [State.goTo_ring, State.goTo_silence, State.goTo_size, State.setStg_ring, State.setStg_silence,
        State.setStg_size]
      exact hring
    · rw [State.goTo_stg]
      exact State.setStg_wf (s := { s with s24Mode := mode, s24Confirmed := confirmed, s24SilentCount := count }) hm
        (fun j => hstg j) j
  | popMove hat hget hin =>
    simpa [State.MemoryInv] using ⟨memWrite_wf _ _ _ _ _ hhost hin, hring, hstg⟩
  | resize | clear =>
    refine ⟨by simpa using hhost, by simp, fun j => ?_⟩
    rw [State.finish_stg, State.s24Reset_stg, State.emptyRing_stg]
    exact hstg j
  | _ => simpa [State.MemoryInv] using ⟨hhost, hring, hstg⟩

theorem Outside.keeps_memoryInv {s t : State} (h : Outside s t) (hinv : s.MemoryInv) : t.MemoryInv := by
  obtain ⟨hhost, hring, hstg⟩ := hinv
  have hhost' := h.host hhost
  rw [h.frame]
  exact ⟨hhost', hring, hstg⟩

theorem winWrite_keeps_memoryInv {s t : State} {off : Word} {v : List Byte} (h : winWrite off v s = .next t)
    (hinv : s.MemoryInv) : t.MemoryInv := by
  obtain ⟨hhost, hring, hstg⟩ := hinv
  obtain ⟨-, hsize, -, rfl⟩ := winWrite_cases h
  exact ⟨hhost, memWrite_wf _ _ _ _ _ hring hsize, hstg⟩

theorem State.landTorn_wf {s : State} {landed : List Nat} {p : Port} {m : Memory}
    (hm : Memory.wf hostFill hostSize m = true) :
    Memory.wf hostFill hostSize (s.landTorn landed p m) = true := by
  rcases s.landTorn_cases landed p m with heq | ⟨cmd, a, v, -, -, hin, heq⟩
  · rwa [heq]
  · rw [heq]
    exact landBytes_wf landed v a m hm hin

theorem blockReset_keeps_memoryInv {s : State} (landed : List Nat) (hinv : s.MemoryInv) :
    (s.blockReset landed).MemoryInv := by
  obtain ⟨hhost, -, -⟩ := hinv
  exact ⟨State.landTorn_wf (State.landTorn_wf (State.landTorn_wf hhost)), rfl, fun j => by cases j <;> rfl⟩

/-- Settles O57. -/
theorem memoryFormKept : Obligations.MemoryFormKept := fun _ _ hinv h =>
  step_keeps Outside.keeps_memoryInv LabelledStep.keeps_memoryInv winWrite_keeps_memoryInv
    blockReset_keeps_memoryInv hinv h

end Sys2Proof.Machine
end

section
/-! PROOF. The ports' lanes over one step (spec/60_exceptions.md R290): a labelled step touches its own port's lane
alone, and leaves there nothing or its own command at a legal stage. -/

namespace Sys2Proof.Machine

section
variable {s t : State} {i : Instr}

/-- A labelled step leaves every other port's lane. -/
theorem LabelledStep.lane_other (h : LabelledStep s i t) {q : Port} (hq : q ≠ i.port) : t.lane q = s.lane q := by
  have hfinish : ∀ (u : State) (p : Port) (r : Response), q ≠ p → u.lane q = s.lane q →
      (u.finish p r).lane q = s.lane q := fun u p r hp hu => (u.finish_lane_other p q r hp).trans hu
  have hgoTo : ∀ (u : State) (st : Stage), u.lane q = s.lane q → (u.goTo i st).lane q = s.lane q :=
    fun u st hu => (u.goTo_lane_other i st q hq).trans hu
  cases h with
  | renterPoll => rfl
  | copyStart | copyMove | pushStart | pushMove | transfer | popStart | popMove | genterStart | genterCount |
      genterCheck | renterStart | fmtStore => exact hgoTo _ _ (by cases q <;> rfl)
  | convert => exact hgoTo _ _ (by rw [State.setStg_lane]; cases q <;> rfl)
  | publish hpush => exact hfinish _ _ _ (hpush.port ▸ hq) (by cases q <;> rfl)
  | genterRegister => exact hfinish _ _ _ hq (State.setGuard_lane ..)
  | gexit => exact hfinish _ _ _ hq (by rw [State.setGuard_lane]; cases q <;> rfl)
  | _ => exact hfinish _ _ _ hq (by cases q <;> rfl)

/-- Before and after a labelled step the command's own port is free or holds that command. -/
theorem LabelledStep.own_lane (h : LabelledStep s i t) :
    (s.portFree i.port ∨ ∃ st, s.atStage i st) ∧ (t.portFree i.port ∨ ∃ st, t.atStage i st) := by
  constructor
  · cases h with
    | pushStart hpush hfree => exact .inl (hpush.port ▸ hfree)
    | fmtStore hplace =>
      rcases hplace with ⟨hfree, -, -⟩ | hat
      · exact .inl hfree
      · exact .inr ⟨_, hat⟩
    | copyMove _ hat | copyDone _ hat | convert _ hat | transfer _ hat | publish _ hat => exact .inr ⟨_, hat⟩
    | pushMove hat | popMove hat | popPublish hat => exact .inr ⟨_, hat⟩
    | genterCount hat | genterCheck hat | genterUndo hat | genterRegister hat => exact .inr ⟨_, hat⟩
    | renterPoll hat | renterGrant hat | fmtDone hat => exact .inr ⟨_, hat⟩
    | copyOverlap _ hfree | copyStart _ hfree => exact .inl hfree
    | answered hfree | popStart hfree | wrgn hfree | wcommit hfree | rrgn hfree | radv hfree => exact .inl hfree
    | resize hfree | clear hfree | hint hfree | genterStart hfree | gexit hfree => exact .inl hfree
    | renterStart hfree | rexit hfree => exact .inl hfree
  · rcases h.progress with hfree | ⟨-, hat, rfl⟩ | ⟨st, hat, -⟩
    · exact .inl hfree
    · exact .inr ⟨_, hat⟩
    · exact .inr ⟨st, hat⟩

/-- A copy in flight is one whose ranges do not overlap. -/
theorem Copies.legal {i : Instr} {dst src n : Word} (hi : Copies i dst src n) :
    (Command.mk i .copyMove).legal = !overlap dst src n ∧ (Command.mk i .copyDone).legal = !overlap dst src n := by
  obtain ⟨p, rfl | rfl⟩ := hi <;> exact ⟨rfl, rfl⟩

/-- A command that goes on stands at a legal stage. -/
theorem LabelledStep.legal (h : LabelledStep s i t) (hinv : s.LanesInv) {st : Stage} (hst : t.atStage i st) :
    (Command.mk i st).legal = true := by
  have hown : ∀ {st'}, s.atStage i st' → (Command.mk i st').legal = true := fun hat => (hinv _ _ hat).2
  have hgoTo : ∀ {u : State} {st'}, t = u.goTo i st' → st = st' := fun ht =>
    State.atStage_unique hst (ht ▸ State.atStage_goTo)
  have hfinish : ∀ {u : State} {r}, t = u.finish i.port r → (Command.mk i st).legal = true := fun ht =>
    absurd hst (State.not_atStage_of_portFree (ht ▸ State.portFree_finish))
  cases h with
  | renterPoll => exact hown hst
  | copyStart hcopy hfree hover =>
    rw [hgoTo rfl, hcopy.legal.1, hover]
    rfl
  | copyMove hcopy hat =>
    rw [hgoTo rfl, hcopy.legal.2, ← hcopy.legal.1]
    exact hown hat
  | pushStart hpush hfree hphase hlegal =>
    rw [hgoTo rfl]
    exact hlegal
  | pushMove hat | popMove hat =>
    have hmove := hown hat
    rw [hgoTo rfl]
    exact hmove
  | convert hk hat =>
    rw [hgoTo rfl, (hk.legal _ _).1]
    exact hown hat
  | transfer hk hat =>
    rw [hgoTo rfl, (hk.legal _ _).2, ← (hk.legal _ _).1]
    exact hown hat
  | popStart hfree hphase hpos hlen =>
    rw [hgoTo rfl]
    exact decide_eq_true ⟨hpos, hlen⟩
  | genterStart | genterCount | genterCheck | renterStart => rw [hgoTo rfl]; rfl
  | fmtStore hplace hx =>
    rw [hgoTo rfl]
    refine decide_eq_true (List.Nodup.erase _ ?_)
    rcases hplace with ⟨-, -, rfl⟩ | hat
    · decide
    · exact of_decide_eq_true (hown hat)
  | publish hpush => exact hfinish (by rw [hpush.port])
  | _ => exact hfinish rfl

/-- Every command in flight stays a command of its port at one of its steps. -/
theorem LabelledStep.keeps_lanesInv (h : LabelledStep s i t) (hinv : s.LanesInv) : t.LanesInv := by
  intro q c hc
  by_cases hq : q = i.port
  · subst hq
    rcases h.own_lane.2 with hfree | ⟨st, hat⟩
    · cases hfree.symm.trans hc
    · cases Option.some.inj (hat.symm.trans hc)
      exact ⟨rfl, h.legal hinv hat⟩
  · rw [h.lane_other hq] at hc
    exact hinv q c hc

end

end Sys2Proof.Machine
end

section
/-! PROOF. The guard unit over one step (spec/44_guards_format.md R250 to R260; spec/10_state.md R40 to R43, R52): a
step of a data port's guard, a step of K's guard, and every other step. -/

namespace Sys2Proof.Machine

/-! What the guard unit sees of the lanes. -/

/-- A command of the guard unit: GENTER, RENTER or SETFMT, whose place in flight the invariant speaks of. -/
def guardCommand : Instr → Bool
  | .genter _ | .renter | .setfmt _ => true
  | _ => false

/-- The command in flight, if it is one of the guard unit's. -/
def guardRole (c : Option Command) : Option Command := c.filter (fun c => guardCommand c.instr)

/-- The stage of a GENTER. -/
def genterOf : Option Command → Option Stage
  | some { instr := .genter _, stage := st } => some st
  | _ => none

theorem State.genterStage_eq (s : State) (p : DataPort) :
    s.genterStage p = genterOf (guardRole (s.lane p.port).inflight) := by
  rw [State.genterStage]
  rcases (s.lane p.port).inflight with _ | ⟨i, st⟩
  · rfl
  · cases i <;> rfl

theorem guardRole_eq_some_iff {c : Option Command} {i : Instr} {st : Stage} (hi : guardCommand i = true) :
    guardRole c = some ⟨i, st⟩ ↔ c = some ⟨i, st⟩ := by
  simp only [guardRole, Option.filter_eq_some_iff, hi, and_true]

/-- The other data port has another port of its own. -/
theorem DataPort.port_injective {p q : DataPort} (h : q ≠ p) : q.port ≠ p.port := by
  cases p <;> cases q <;> first | exact absurd rfl h | decide

theorem DataPort.port_ne_config (p : DataPort) : p.port ≠ .config := by cases p <;> decide

theorem IsPush.not_guardCommand {i : Instr} (hi : IsPush i) : guardCommand i = false := by
  cases hi with
  | push src len => rfl
  | converting hk => cases hk <;> rfl

theorem Copies.not_guardCommand {i : Instr} {dst src n : Word} (hi : Copies i dst src n) : guardCommand i = false := by
  obtain ⟨p, rfl | rfl⟩ := hi <;> rfl

section
variable {s t : State} {i : Instr}

/-- A step of any other command, or one that finds and leaves its port free, is not seen by the guard unit. -/
theorem LabelledStep.guardRole_eq (h : LabelledStep s i t)
    (hi : guardCommand i = false ∨ (s.portFree i.port ∧ t.portFree i.port)) (q : Port) :
    guardRole (t.lane q).inflight = guardRole (s.lane q).inflight := by
  by_cases hq : q = i.port
  · subst hq
    have hnone : ∀ {u : State}, (u.portFree i.port ∨ ∃ st, u.atStage i st) → guardCommand i = false →
        guardRole (u.lane i.port).inflight = none := by
      rintro u (hfree | ⟨st, hat⟩) hcmd
      · rw [hfree]; rfl
      · rw [hat]; simp [guardRole, hcmd]
    rcases hi with hcmd | ⟨hs, ht⟩
    · rw [hnone h.own_lane.1 hcmd, hnone h.own_lane.2 hcmd]
    · rw [hs, ht]
  · rw [h.lane_other hq]

/-! Keeping the invariant. -/

/-- The invariant rests on the registrations, on whether the ports are idle, on the counter, the flag and K's phase,
and on what the guard unit sees of the lanes. -/
theorem State.GuardInv.congr (hinv : s.GuardInv) (hreg : ∀ p, t.reg p = s.reg p)
    (hidle : ∀ p, t.phase p = .idle ↔ s.phase p = .idle) (husers : t.activeUsers = s.activeUsers)
    (hflag : t.reconfig = s.reconfig) (hphase : t.phaseK = s.phaseK)
    (hrole : ∀ p, guardRole (t.lane p).inflight = guardRole (s.lane p).inflight) : t.GuardInv := by
  have hstage : ∀ p, t.genterStage p = s.genterStage p := fun p => by
    rw [State.genterStage_eq, State.genterStage_eq, hrole]
  have hlaneK : ∀ {i st}, guardCommand i = true →
      (t.laneK.inflight = some ⟨i, st⟩ ↔ s.laneK.inflight = some ⟨i, st⟩) := fun hi => by
    have hK : guardRole t.laneK.inflight = guardRole s.laneK.inflight := hrole .config
    rw [← guardRole_eq_some_iff hi, hK, guardRole_eq_some_iff hi]
  obtain ⟨hregs, hgenter, hcount, hrecon, hwait, hexcl, hset⟩ := hinv
  refine ⟨fun p => ?_, fun p hne => ?_, ?_, ?_, ?_, fun hx p => ?_, fun f pending hc => ?_⟩
  · rw [hreg, Ne, hidle]; exact hregs p
  · exact (hidle p).2 (hgenter p (hstage p ▸ hne))
  · simp only [State.usersOf, hreg, hstage, husers]; exact hcount
  · rw [hflag, hphase]; exact hrecon
  · rw [hphase, hlaneK rfl]; exact hwait
  · rw [hreg, hstage]; exact hexcl (hphase ▸ hx) p
  · rw [hphase]; exact hset f pending ((hlaneK rfl).1 hc)

/-- A step of data port `p`'s own guard: K's part and the other port are as they were, the counter moves with the
port's own contribution, and the port does not register while K has exclusive ownership. -/
theorem State.GuardInv.of_data (hinv : s.GuardInv) (p : DataPort)
    (hlane : ∀ q, q ≠ p.port → t.lane q = s.lane q)
    (hother : ∀ q, q ≠ p → t.reg q = s.reg q ∧ t.phase q = s.phase q)
    (hK : t.reconfig = s.reconfig ∧ t.phaseK = s.phaseK)
    (hreg : t.reg p = true ↔ t.phase p ≠ .idle) (hgenter : t.genterStage p ≠ none → t.phase p = .idle)
    (hcount : t.activeUsers.toNat + s.usersOf p = s.activeUsers.toNat + t.usersOf p)
    (hexcl : s.phaseK = .excl → t.reg p = false ∧ t.genterStage p ≠ some (.g4 false)) : t.GuardInv := by
  obtain ⟨hregs, hgenters, hcounts, hrecon, hwait, hexcls, hset⟩ := hinv
  obtain ⟨hflag, hphase⟩ := hK
  have hlaneK : t.laneK = s.laneK := hlane .config (DataPort.port_ne_config p).symm
  have hstage : ∀ q, q ≠ p → t.genterStage q = s.genterStage q := fun q hq => by
    rw [State.genterStage, State.genterStage, hlane _ (DataPort.port_injective hq)]
  have husers : ∀ q, q ≠ p → t.usersOf q = s.usersOf q := fun q hq => by
    rw [State.usersOf, State.usersOf, (hother q hq).1, hstage q hq]
  refine ⟨fun q => ?_, fun q hne => ?_, ?_, ?_, ?_, fun hx q => ?_, fun f pending hc => ?_⟩
  · by_cases hq : q = p
    · rwa [hq]
    · rw [(hother q hq).1, (hother q hq).2]; exact hregs q
  · by_cases hq : q = p
    · rw [hq] at hne ⊢; exact hgenter hne
    · rw [(hother q hq).2]; exact hgenters q (hstage q hq ▸ hne)
  · cases p with
    | producer => have := husers .consumer (by decide); omega
    | consumer => have := husers .producer (by decide); omega
  · rw [hflag, hphase]; exact hrecon
  · rw [hphase, hlaneK]; exact hwait
  · by_cases hq : q = p
    · rw [hq]; exact hexcl (hphase ▸ hx)
    · rw [(hother q hq).1, hstage q hq]; exact hexcls (hphase ▸ hx) q
  · rw [hphase]; exact hset f pending (hlaneK ▸ hc)

/-- A step of K's guard: the data ports and the counter are as they were, and exclusive ownership is granted only at
counter 0. -/
theorem State.GuardInv.of_config (hinv : s.GuardInv)
    (hdata : ∀ p, t.reg p = s.reg p ∧ t.phase p = s.phase p ∧ t.lane p.port = s.lane p.port)
    (husers : t.activeUsers = s.activeUsers) (hrecon : t.reconfig = true ↔ t.phaseK ≠ .idle)
    (hwait : t.phaseK = .waiting ↔ t.laneK.inflight = some { instr := .renter, stage := .r2 })
    (hgrant : t.phaseK = .excl → s.phaseK = .excl ∨ s.activeUsers = 0)
    (hset : ∀ f pending, t.laneK.inflight = some { instr := .setfmt f, stage := .fmtStore pending } →
      t.phaseK = .excl) : t.GuardInv := by
  obtain ⟨hregs, hgenters, hcounts, -, -, hexcls, -⟩ := hinv
  have hstage : ∀ p, t.genterStage p = s.genterStage p := fun p => by
    rw [State.genterStage, State.genterStage, (hdata p).2.2]
  have husersOf : ∀ p, t.usersOf p = s.usersOf p := fun p => by
    rw [State.usersOf, State.usersOf, (hdata p).1, hstage p]
  refine ⟨fun p => ?_, fun p hne => ?_, ?_, hrecon, hwait, fun hx p => ?_, hset⟩
  · rw [(hdata p).1, (hdata p).2.1]; exact hregs p
  · rw [(hdata p).2.1]; exact hgenters p (hstage p ▸ hne)
  · rw [husers, husersOf, husersOf]; exact hcounts
  · rw [(hdata p).1, hstage p]
    rcases hgrant hx with hold | hzero
    · exact hexcls hold p
    · have hnone : s.usersOf p = 0 := by
        rw [hzero] at hcounts
        have hz : (0 : BitVec 8).toNat = 0 := rfl
        cases p <;> omega
      rw [State.usersOf] at hnone
      split at hnone
      · cases hnone
      next hreg =>
        refine ⟨by simpa using hreg, fun hst => ?_⟩
        rw [hst] at hnone
        cases hnone

/-! The labelled steps of the guard unit. -/

theorem State.genterStage_of_atStage {p : DataPort} {st : Stage} (h : s.atStage (.genter p) st) :
    s.genterStage p = some st := by
  rw [State.genterStage, show (s.lane p.port).inflight = some ⟨.genter p, st⟩ from h]

theorem State.genterStage_of_portFree {p : DataPort} (h : s.portFree p.port) : s.genterStage p = none := by
  rw [State.genterStage, show (s.lane p.port).inflight = none from h]

theorem State.usersOf_eq {p : DataPort} {b : Bool} (hreg : s.reg p = b) : s.usersOf p =
    if b then 1 else match s.genterStage p with
      | some .g3 => 1
      | some (.g4 _) => 1
      | _ => 0 := by
  subst hreg
  rfl

/-- No more than two users are counted (R41). -/
theorem State.GuardInv.activeUsers_le (hinv : s.GuardInv) : s.activeUsers.toNat ≤ 2 := by
  have hle : ∀ p, s.usersOf p ≤ 1 := fun p => by
    rw [State.usersOf]
    split
    · exact le_refl 1
    · split <;> omega
  have hP := hle .producer
  have hC := hle .consumer
  obtain ⟨-, -, hcount, -⟩ := hinv
  omega

/-- A port with a GENTER in flight is idle and not registered. -/
theorem State.GuardInv.of_genterStage (hinv : s.GuardInv) {p : DataPort} {st : Stage}
    (h : s.genterStage p = some st) : s.phase p = .idle ∧ s.reg p = false := by
  obtain ⟨hregs, hgenters, -⟩ := hinv
  have hidle := hgenters p (by simp [h])
  exact ⟨hidle, by simpa [hidle] using hregs p⟩

/-- What a port contributes is on the counter. -/
theorem State.GuardInv.usersOf_le (hinv : s.GuardInv) (p : DataPort) : s.usersOf p ≤ s.activeUsers.toNat := by
  obtain ⟨-, -, hcount, -⟩ := hinv
  cases p <;> omega

theorem activeUsers_inc {a : BitVec 8} (h : a.toNat ≤ 2) : (a + 1).toNat = a.toNat + 1 := by
  have hone : (1 : BitVec 8).toNat = 1 := rfl
  rw [BitVec.toNat_add, hone]
  omega

theorem activeUsers_dec {a : BitVec 8} (h : 1 ≤ a.toNat) : (a - 1).toNat + 1 = a.toNat := by
  have hone : (1 : BitVec 8).toNat = 1 := rfl
  have ha := a.isLt
  rw [BitVec.toNat_sub, hone]
  omega

variable {p : DataPort} {r : Response}

theorem State.GuardInv.genterStart (hinv : s.GuardInv) (hfree : s.portFree p.port) (hidle : s.phase p = .idle) :
    (s.goTo (.genter p) .g2).GuardInv := by
  have hreg : s.reg p = false := by simpa [hidle] using hinv.1 p
  have hold := State.genterStage_of_portFree hfree
  have hnew : (s.goTo (.genter p) .g2).genterStage p = some .g2 := State.genterStage_of_atStage State.atStage_goTo
  refine hinv.of_data p (fun q hq => (LabelledStep.genterStart hfree hidle).lane_other hq) (fun q _ => by simp)
    (by simp) (by simp [hreg, hidle]) (by simp [hidle]) ?_ (by simp [hreg, hnew])
  rw [State.usersOf_eq hreg, State.usersOf_eq (by simpa using hreg), hnew, hold]
  simp

theorem State.GuardInv.genterCount (hinv : s.GuardInv) (hat : s.atStage (.genter p) .g2) :
    (s.incUsers.goTo (.genter p) .g3).GuardInv := by
  have hold := State.genterStage_of_atStage hat
  obtain ⟨hidle, hreg⟩ := hinv.of_genterStage hold
  have hnew : (s.incUsers.goTo (.genter p) .g3).genterStage p = some .g3 :=
    State.genterStage_of_atStage State.atStage_goTo
  refine hinv.of_data p (fun q hq => (LabelledStep.genterCount hat).lane_other hq) (fun q _ => by simp)
    (by simp) (by simp [hreg, hidle]) (by simp [hidle]) ?_ (by simp [hreg, hnew])
  rw [State.usersOf_eq hreg, State.usersOf_eq (by simpa using hreg), hnew, hold]
  simpa using activeUsers_inc hinv.activeUsers_le

/-- The re-check finds the flag set while K has exclusive ownership. -/
theorem State.GuardInv.genterCheck (hinv : s.GuardInv) (hat : s.atStage (.genter p) .g3) :
    (s.goTo (.genter p) (.g4 s.reconfig)).GuardInv := by
  have hold := State.genterStage_of_atStage hat
  obtain ⟨hidle, hreg⟩ := hinv.of_genterStage hold
  obtain ⟨-, -, -, hrecon, -⟩ := id hinv
  have hnew : (s.goTo (.genter p) (.g4 s.reconfig)).genterStage p = some (.g4 s.reconfig) :=
    State.genterStage_of_atStage State.atStage_goTo
  refine hinv.of_data p (fun q hq => (LabelledStep.genterCheck hat).lane_other hq) (fun q _ => by simp)
    (by simp) (by simp [hreg, hidle]) (by simp [hidle]) ?_ fun hx => ?_
  · rw [State.usersOf_eq hreg, State.usersOf_eq (by simpa using hreg), hnew, hold]
    simp
  · rw [hnew, hrecon.2 (by simp [hx])]
    exact ⟨by simpa using hreg, by decide⟩

theorem State.GuardInv.genterUndo (hinv : s.GuardInv) (hat : s.atStage (.genter p) (.g4 true)) :
    (s.decUsers.finish p.port r).GuardInv := by
  have hold := State.genterStage_of_atStage hat
  obtain ⟨hidle, hreg⟩ := hinv.of_genterStage hold
  have hnew : (s.decUsers.finish p.port r).genterStage p = none := State.genterStage_of_portFree State.portFree_finish
  have husers := hinv.usersOf_le p
  rw [State.usersOf_eq hreg, hold] at husers
  refine hinv.of_data p (fun q hq => (LabelledStep.genterUndo hat).lane_other hq) (fun q _ => by simp)
    (by simp) (by simp [hreg, hidle]) (by simp [hidle]) ?_ (by simp [hreg, hnew])
  rw [State.usersOf_eq hreg, State.usersOf_eq (by simpa using hreg), hnew, hold]
  simpa using activeUsers_dec husers

/-- No port stands at g4 with the flag found clear while K has exclusive ownership. -/
theorem State.GuardInv.genterRegister (hinv : s.GuardInv) (hat : s.atStage (.genter p) (.g4 false)) :
    ((s.setGuard p true .guarded).finish p.port r).GuardInv := by
  have hold := State.genterStage_of_atStage hat
  obtain ⟨hidle, hreg⟩ := hinv.of_genterStage hold
  obtain ⟨-, -, -, -, -, hexcl, -⟩ := id hinv
  have hnew : ((s.setGuard p true .guarded).finish p.port r).genterStage p = none :=
    State.genterStage_of_portFree State.portFree_finish
  refine hinv.of_data p (fun q hq => (LabelledStep.genterRegister hat).lane_other hq) (fun q hq => ?_) (by simp)
    (by simp) (fun hne => absurd hnew hne) ?_ fun hx => absurd hold (hexcl hx p).2
  · rw [State.finish_reg, State.finish_phase]
    exact ⟨State.setGuard_reg_other s p q _ _ hq, State.setGuard_phase_other s p q _ _ hq⟩
  · rw [State.usersOf_eq hreg, State.usersOf_eq (b := true) (by simp), hold]
    simp

theorem State.GuardInv.gexit (hinv : s.GuardInv) (hfree : s.portFree p.port) (hphase : s.phase p ≠ .region) :
    (({ s with activeUsers := if s.reg p then s.activeUsers - 1 else s.activeUsers }.setGuard p false .idle).finish
      p.port r).GuardInv := by
  have hold := State.genterStage_of_portFree hfree
  have husers := hinv.usersOf_le p
  set t := ({ s with activeUsers := if s.reg p then s.activeUsers - 1 else s.activeUsers }.setGuard p false
    .idle).finish p.port r with ht
  have hnew : t.genterStage p = none := State.genterStage_of_portFree State.portFree_finish
  have hreg : t.reg p = false := by simp [ht]
  refine hinv.of_data p (fun q hq => (LabelledStep.gexit hfree hphase).lane_other hq) (fun q hq => ?_) (by simp [ht])
    (by simp [ht]) (by simp [ht]) ?_ fun _ => ⟨hreg, by simp [hnew]⟩
  · rw [ht, State.finish_reg, State.finish_phase, State.setGuard_reg_other _ p q _ _ hq,
      State.setGuard_phase_other _ p q _ _ hq]
    cases q <;> exact ⟨rfl, rfl⟩
  · rw [State.usersOf_eq hreg, hnew]
    cases hr : s.reg p
    · rw [State.usersOf_eq hr, hold]
      simp [ht, hr]
    · rw [State.usersOf_eq hr] at husers ⊢
      simpa [ht, hr] using activeUsers_dec husers

theorem State.GuardInv.renterStart (hinv : s.GuardInv) (hfree : s.portFree .config) (hidle : s.phaseK = .idle) :
    ({ s with reconfig := true, phaseK := .waiting }.goTo .renter .r2).GuardInv := by
  have hdata : ∀ q ≠ Port.config, _ = s.lane q := fun q hq => (LabelledStep.renterStart hfree hidle).lane_other hq
  refine hinv.of_config (fun p => ⟨?_, ?_, hdata _ (DataPort.port_ne_config p)⟩) (by simp) (by simp) ?_ (by simp)
    fun f pending hset => ?_
  · rw [State.goTo_reg]; cases p <;> rfl
  · rw [State.goTo_phase]; cases p <;> rfl
  · exact iff_of_true (by simp) rfl
  · cases hset

theorem State.GuardInv.renterGrant (hinv : s.GuardInv) (hat : s.atStage .renter .r2) (hzero : s.activeUsers = 0) :
    ({ s with phaseK := .excl }.finish .config r).GuardInv := by
  have hdata : ∀ q ≠ Port.config, _ = s.lane q := fun q hq =>
    (LabelledStep.renterGrant (r := r) hat hzero).lane_other hq
  obtain ⟨-, -, -, hrecon, hwait, -⟩ := id hinv
  refine hinv.of_config (fun p => ⟨?_, ?_, hdata _ (DataPort.port_ne_config p)⟩) (by simp) ?_ ?_
    (fun _ => .inr hzero) fun f pending hset => ?_
  · rw [State.finish_reg]; cases p <;> rfl
  · rw [State.finish_phase]; cases p <;> rfl
  · have hflag := hrecon.2 (by rw [hwait.2 hat]; decide)
    simp [hflag]
  · simp [State.finish, State.setLane]
  · simp

theorem State.GuardInv.rexit (hinv : s.GuardInv) (hfree : s.portFree .config) (hexcl : s.phaseK = .excl) :
    ({ s with reconfig := false, phaseK := .idle }.finish .config r).GuardInv := by
  have hdata : ∀ q ≠ Port.config, _ = s.lane q := fun q hq =>
    (LabelledStep.rexit (r := r) hfree hexcl).lane_other hq
  refine hinv.of_config (fun p => ⟨?_, ?_, hdata _ (DataPort.port_ne_config p)⟩) (by simp) (by simp) ?_
    (by simp) fun f pending hset => ?_
  · rw [State.finish_reg]; cases p <;> rfl
  · rw [State.finish_phase]; cases p <;> rfl
  · simp [State.finish, State.setLane]
  · cases hset

/-- A step of SETFMT is taken under exclusive ownership. -/
theorem State.GuardInv.excl_of_setfmt (hinv : s.GuardInv) {f : Format} {pending : List FmtField}
    (h : (s.portFree .config ∧ s.phaseK = .excl ∧ pending = allFmtFields) ∨
      s.atStage (.setfmt f) (.fmtStore pending)) : s.phaseK = .excl := by
  obtain ⟨-, -, -, -, -, -, hset⟩ := hinv
  rcases h with ⟨-, hexcl, -⟩ | hat
  · exact hexcl
  · exact hset f pending hat

/-- A step of K that keeps exclusive ownership and leaves no RENTER in flight. -/
theorem State.GuardInv.of_excl (hinv : s.GuardInv) (h : LabelledStep s i t) (hport : i.port = .config)
    (hdata : ∀ p, t.reg p = s.reg p ∧ t.phase p = s.phase p) (husers : t.activeUsers = s.activeUsers)
    (hflag : t.reconfig = s.reconfig) (hphase : t.phaseK = s.phaseK) (hexcl : s.phaseK = .excl)
    (hlane : t.laneK.inflight ≠ some ⟨.renter, .r2⟩) : t.GuardInv := by
  obtain ⟨-, -, -, hrecon, -⟩ := id hinv
  have hdata' : ∀ p : DataPort, t.lane p.port = s.lane p.port := fun p =>
    h.lane_other (hport ▸ DataPort.port_ne_config p)
  refine hinv.of_config (fun p => ⟨(hdata p).1, (hdata p).2, hdata' p⟩) husers ?_ ?_ (fun _ => .inl hexcl)
    fun _ _ _ => hphase.trans hexcl
  · rw [hflag, hphase]; exact hrecon
  · rw [hphase, hexcl]
    exact iff_of_false (by decide) hlane

/-- A labelled step keeps the invariant of the guard unit. -/
theorem LabelledStep.keeps_guardInv (h : LabelledStep s i t) (hinv : s.GuardInv) : t.GuardInv := by
  have hrole := h.guardRole_eq
  have hstep := h
  cases h with
  | genterStart hfree hidle => exact hinv.genterStart hfree hidle
  | genterCount hat => exact hinv.genterCount hat
  | genterCheck hat => exact hinv.genterCheck hat
  | genterUndo hat => exact hinv.genterUndo hat
  | genterRegister hat => exact hinv.genterRegister hat
  | gexit hfree hphase => exact hinv.gexit hfree hphase
  | renterPoll => exact hinv
  | renterStart hfree hidle => exact hinv.renterStart hfree hidle
  | renterGrant hat hzero => exact hinv.renterGrant hat hzero
  | rexit hfree hexcl => exact hinv.rexit hfree hexcl
  | fmtStore hplace =>
    exact hinv.of_excl hstep rfl (fun p => by cases p <;> exact ⟨rfl, rfl⟩) rfl rfl rfl (hinv.excl_of_setfmt hplace)
      fun hc => by cases hc
  | fmtDone hat =>
    exact hinv.of_excl hstep rfl (fun p => by cases p <;> exact ⟨rfl, rfl⟩) rfl rfl rfl
      (hinv.excl_of_setfmt (.inr hat)) fun hc => by cases hc
  | answered hfree =>
    exact hinv.congr (fun p => by rw [State.finish_reg]) (fun p => by rw [State.finish_phase]) (by simp) (by simp)
      (by simp) (hrole (.inr ⟨hfree, State.portFree_finish⟩))
  | hint hfree =>
    exact hinv.congr (fun p => by rw [State.finish_reg]; cases p <;> rfl)
      (fun p => by rw [State.finish_phase]; cases p <;> rfl) (by simp) (by simp) (by simp)
      (hrole (.inr ⟨hfree, State.portFree_finish⟩))
  | copyOverlap hcopy hfree =>
    exact hinv.congr (fun p => by rw [State.finish_reg]; cases p <;> rfl)
      (fun p => by rw [State.finish_phase]; cases p <;> rfl) (by simp) (by simp) (by simp)
      (hrole (.inr ⟨hfree, State.portFree_finish⟩))
  | copyStart hcopy =>
    exact hinv.congr (fun p => by rw [State.goTo_reg]) (fun p => by rw [State.goTo_phase]) (by simp) (by simp)
      (by simp) (hrole (.inl hcopy.not_guardCommand))
  | copyMove hcopy =>
    exact hinv.congr (fun p => by rw [State.goTo_reg]; cases p <;> rfl)
      (fun p => by rw [State.goTo_phase]; cases p <;> rfl) (by simp) (by simp) (by simp)
      (hrole (.inl hcopy.not_guardCommand))
  | copyDone hcopy =>
    exact hinv.congr (fun p => by rw [State.finish_reg])
      (fun p => by rw [State.finish_phase]) (by simp) (by simp) (by simp)
      (hrole (.inl hcopy.not_guardCommand))
  | pushStart hpush =>
    exact hinv.congr (fun p => by rw [State.goTo_reg])
      (fun p => by rw [State.goTo_phase]) (by simp) (by simp) (by simp)
      (hrole (.inl hpush.not_guardCommand))
  | publish hpush =>
    exact hinv.congr (fun p => by rw [State.finish_reg]; cases p <;> rfl)
      (fun p => by rw [State.finish_phase]; cases p <;> rfl) (by simp) (by simp) (by simp)
      (hrole (.inl hpush.not_guardCommand))
  | convert hk | transfer hk =>
    exact hinv.congr (fun p => by cases p <;> simp [State.reg]) (fun p => by cases p <;> simp [State.phase]) (by simp)
      (by simp) (by simp) (hrole (.inl (IsPush.converting hk).not_guardCommand))
  | wrgn hfree hphase | wcommit hfree hphase | rrgn hfree hphase | radv hfree hphase =>
    exact hinv.congr (fun p => by cases p <;> rfl) (fun p => by cases p <;> simp [State.phase, hphase]) rfl rfl rfl
      (hrole (.inl rfl))
  | _ =>
    exact hinv.congr (fun p => by cases p <;> rfl) (fun p => by cases p <;> rfl) rfl rfl rfl (hrole (.inl rfl))

theorem Outside.keeps_guardInv (h : Outside s t) (hinv : s.GuardInv) : t.GuardInv := by
  have hframe := h.frame
  have hreg : ∀ p, t.reg p = s.reg p := fun p => by rw [hframe]; cases p <;> rfl
  have hphase : ∀ p, t.phase p = s.phase p := fun p => by rw [hframe]; cases p <;> rfl
  exact hinv.congr hreg (fun p => by rw [hphase]) (by rw [hframe]) (by rw [hframe]) (by rw [hframe])
    (fun p => by rw [h.inflight])

theorem winWrite_keeps_guardInv {off : Word} {v : List Byte} (h : winWrite off v s = .next t) (hinv : s.GuardInv) :
    t.GuardInv := by
  obtain ⟨-, -, -, rfl⟩ := winWrite_cases h
  exact hinv.congr (fun p => by cases p <;> rfl) (fun p => by cases p <;> rfl) rfl rfl rfl
    (fun p => by cases p <;> rfl)

theorem blockReset_guardInv (s : State) (landed : List Nat) : (s.blockReset landed).GuardInv := by
  refine ⟨fun p => ?_, fun p h => ?_, rfl, ?_, ?_, fun h => ?_, fun f pending h => ?_⟩
  · cases p <;> exact ⟨fun h => Bool.noConfusion h, fun h => absurd rfl h⟩
  · cases p <;> rfl
  · exact ⟨fun h => Bool.noConfusion h, fun h => absurd rfl h⟩
  · constructor <;> intro h <;> cases h
  · cases h
  · cases h

/-- A step keeps the invariant of the guard unit. -/
theorem step_keeps_guardInv (hinv : s.GuardInv) (h : step s = .next t) : t.GuardInv :=
  step_keeps Outside.keeps_guardInv LabelledStep.keeps_guardInv winWrite_keeps_guardInv
    (fun landed _ => blockReset_guardInv _ landed) hinv h

/-- Settles O42. -/
theorem guardInvariantKept : Obligations.GuardInvariantKept := fun _ _ _ hinv h => step_keeps_guardInv hinv h

/-- Settles O43. -/
theorem mutualExclusion : Obligations.MutualExclusion := by
  intro s t _ hinv h
  have hnew := step_keeps_guardInv hinv h
  obtain ⟨hregs, -, -, -, -, hexcl, -⟩ := id hnew
  refine ⟨fun hx p => ?_, hnew.activeUsers_le⟩
  have hreg := (hexcl hx p).1
  exact ⟨hreg, by simpa [hreg] using hregs p⟩

/-! Registration (R259 b). -/

/-- A labelled step registers a port only at g4, after the flag was found clear. -/
theorem LabelledStep.genterStage_of_registers (h : LabelledStep s i t) {p : DataPort} (hs : s.reg p = false)
    (ht : t.reg p = true) : s.genterStage p = some (.g4 false) := by
  have hsame : t.reg p = s.reg p → s.genterStage p = some (.g4 false) := fun heq => by
    rw [heq, hs] at ht
    cases ht
  cases h with
  | @genterRegister q _ hat =>
    by_cases hp : p = q
    · rw [hp]
      exact State.genterStage_of_atStage hat
    · exact hsame (by rw [State.finish_reg, State.setGuard_reg_other _ _ _ _ _ hp])
  | @gexit q _ _ _ =>
    by_cases hp : p = q
    · simp [hp] at ht
    · exact hsame (by rw [State.finish_reg, State.setGuard_reg_other _ _ _ _ _ hp]; cases p <;> rfl)
  | _ => exact hsame (by cases p <;> simp [State.reg])

/-- While the flag is set, no re-check of GENTER finds it clear. -/
theorem LabelledStep.not_clear_of_reconfig (h : LabelledStep s i t) (hflag : s.reconfig = true) {p : DataPort}
    (hi : i = .genter p) : ¬ t.atStage i (.g4 false) := by
  have hgoTo : ∀ {u : State} {st}, t = u.goTo i st → st ≠ .g4 false → ¬ t.atStage i (.g4 false) := fun ht hst hat =>
    hst (State.atStage_unique (ht ▸ State.atStage_goTo) hat)
  have hfinish : ∀ {u : State} {r}, t = u.finish i.port r → ¬ t.atStage i (.g4 false) := fun ht =>
    State.not_atStage_of_portFree (ht ▸ State.portFree_finish)
  cases h with
  | genterCheck => exact hgoTo rfl (by simp [hflag])
  | publish hpush => exact hfinish (by rw [hpush.port])
  | renterPoll => cases hi
  | copyStart | copyMove | pushStart | pushMove | convert | transfer | popStart | popMove | genterStart |
      genterCount | renterStart | fmtStore => exact hgoTo rfl (by simp)
  | _ => exact hfinish rfl

theorem State.genterStage_eq_some {p : DataPort} {st : Stage} (h : s.genterStage p = some st) :
    ∃ q, (s.lane p.port).inflight = some ⟨.genter q, st⟩ := by
  rw [State.genterStage] at h
  split at h
  next q st' heq =>
    cases h
    exact ⟨q, heq⟩
  · cases h

/-- With the flag set, a port is led to a clear re-check by no labelled step. -/
theorem LabelledStep.genterStage_of_reconfig (h : LabelledStep s i t) (hflag : s.reconfig = true) {p : DataPort}
    (ht : t.genterStage p = some (.g4 false)) : s.genterStage p = some (.g4 false) := by
  by_cases hp : p.port = i.port
  · obtain ⟨q, hlane⟩ := State.genterStage_eq_some ht
    rcases h.own_lane.2 with hfree | ⟨st, hat⟩
    · rw [hp] at hlane
      cases hfree.symm.trans hlane
    · have hcmd := Option.some.inj (((congrArg (fun q => (t.lane q).inflight) hp).trans hat).symm.trans hlane)
      obtain ⟨hi, rfl⟩ := Command.mk.inj hcmd
      exact absurd hat (h.not_clear_of_reconfig hflag hi)
  · rwa [State.genterStage, h.lane_other hp] at ht

theorem Outside.genterStage_eq (h : Outside s t) (p : DataPort) : t.genterStage p = s.genterStage p := by
  rw [State.genterStage, State.genterStage, h.inflight]

/-- Settles O44. -/
theorem noLateRegistration : Obligations.NoLateRegistration := by
  intro s t p _ h
  have hout : ∀ {s₀ : State}, Outside s s₀ → s₀.reg p = s.reg p ∧ s₀.reconfig = s.reconfig ∧
      s₀.genterStage p = s.genterStage p := fun ho =>
    ⟨by rw [ho.frame]; cases p <;> rfl, by rw [ho.frame], ho.genterStage_eq p⟩
  have hsame : t.reg p = s.reg p → t.genterStage p = s.genterStage p →
      (s.reg p = false → t.reg p = true → s.genterStage p = some (.g4 false)) ∧
        (s.reconfig = true → t.genterStage p = some (.g4 false) → s.genterStage p = some (.g4 false)) := by
    intro hreg hstage
    rw [hreg, hstage]
    exact ⟨fun hf ht => Bool.noConfusion (hf.symm.trans ht), fun _ hst => hst⟩
  rcases step_cases h with ho | ⟨s₀, i, ho, -, -, hstep⟩ | ⟨s₀, off, v, ho, hw⟩ | ⟨-, s₀, landed, -, rfl⟩
  · obtain ⟨hreg, -, hstage⟩ := hout ho
    exact hsame hreg hstage
  · obtain ⟨hreg, hflag, hstage⟩ := hout ho
    rw [← hreg, ← hflag, ← hstage]
    exact ⟨hstep.genterStage_of_registers, fun hflag => hstep.genterStage_of_reconfig hflag⟩
  · obtain ⟨-, -, -, rfl⟩ := winWrite_cases hw
    obtain ⟨hreg, -, hstage⟩ := hout ho
    exact hsame (hreg ▸ by cases p <;> rfl) (hstage ▸ by cases p <;> rfl)
  · refine ⟨fun _ ht => ?_, fun _ ht => ?_⟩
    · cases p <;> cases ht
    · cases p <;> cases ht

end

end Sys2Proof.Machine
end

section
/-! PROOF. Positions, transfers and regions over one step (spec/10_state.md R23 to R25, R53; spec/42_ring.md R190,
R194): advancing one position moves free bytes to occupied ones or back, and no other port's step takes away what a
transfer or a region was granted. -/

namespace Sys2Proof.Machine

section
variable {s t : State} {i : Instr} {n : Nat}

/-! Advancing a position. -/

theorem State.PositionsInv.sizeLog2_le (h : s.PositionsInv) : s.sizeLog2.toNat ≤ 32 := by
  obtain ⟨hcfg, hlog, -, -⟩ := h
  have hmax : s.cfg.log2SizeMax ≤ 31 := of_decide_eq_true hcfg
  omega

theorem State.advancePos_lt (h : s.sizeLog2.toNat ≤ 32) (pos : Word) (n : Nat) :
    (advancePos s.mask pos n).toNat < s.size := by
  rw [State.advancePos_toNat h]
  exact Nat.mod_lt _ s.size_pos

theorem State.size_eq_of_sizeLog2 (h : t.sizeLog2 = s.sizeLog2) : t.size = s.size := by rw [State.size, State.size, h]

/-- Adding less than SIZE to an offset below SIZE wraps at most once. -/
theorem add_mod_of_lt {w n size : Nat} (hw : w < size) (hn : n < size) :
    (w + n) % size = if w + n < size then w + n else w + n - size := by
  split
  case isTrue hlt => exact Nat.mod_eq_of_lt hlt
  case isFalse hge => rw [Nat.mod_eq_sub_mod (by omega), Nat.mod_eq_of_lt (by omega)]

/-- Moving WP on over free bytes makes them occupied. -/
theorem State.PositionsInv.advance_wp (h : s.PositionsInv) (hlog : t.sizeLog2 = s.sizeLog2) (hrp : t.rp = s.rp)
    (hwp : t.wp = advancePos s.mask s.wp n) (hn : n ≤ s.free.toNat) :
    t.avail.toNat = s.avail.toNat + n ∧ t.free.toNat + n = s.free.toNat := by
  have h32 := h.sizeLog2_le
  obtain ⟨-, -, hw, hr⟩ := h
  have hsum := State.avail_add_free h32
  have hsize := State.size_eq_of_sizeLog2 hlog
  have hlt := State.advancePos_lt h32 s.wp n
  have hnew := State.advancePos_toNat h32 s.wp n
  have htavail := State.avail_eq (s := t) (hlog ▸ h32) (by rwa [hsize, hwp]) (by rwa [hsize, hrp])
  have htsum := State.avail_add_free (s := t) (hlog ▸ h32)
  have havail := State.avail_eq h32 hw hr
  rw [add_mod_of_lt hw (by omega)] at hnew
  rw [hsize, hwp, hrp] at htavail
  rw [hsize] at htsum
  split at hnew <;> split at htavail <;> split at havail <;> omega

/-- Moving RP on over occupied bytes makes them free. -/
theorem State.PositionsInv.advance_rp (h : s.PositionsInv) (hlog : t.sizeLog2 = s.sizeLog2) (hwp : t.wp = s.wp)
    (hrp : t.rp = advancePos s.mask s.rp n) (hn : n ≤ s.avail.toNat) :
    t.avail.toNat + n = s.avail.toNat ∧ t.free.toNat = s.free.toNat + n := by
  have h32 := h.sizeLog2_le
  obtain ⟨-, -, hw, hr⟩ := h
  have hsum := State.avail_add_free h32
  have hsize := State.size_eq_of_sizeLog2 hlog
  have hlt := State.advancePos_lt h32 s.rp n
  have hnew := State.advancePos_toNat h32 s.rp n
  have htavail := State.avail_eq (s := t) (hlog ▸ h32) (by rwa [hsize, hwp]) (by rwa [hsize, hrp])
  have htsum := State.avail_add_free (s := t) (hlog ▸ h32)
  have havail := State.avail_eq h32 hw hr
  rw [add_mod_of_lt hr (by omega)] at hnew
  rw [hsize, hwp, hrp] at htavail
  rw [hsize] at htsum
  split at hnew <;> split at htavail <;> split at havail <;> omega

/-! Positions. -/

/-- A labelled step keeps the size legal and both positions below it. -/
theorem LabelledStep.keeps_positionsInv (h : LabelledStep s i t) (hi : s.Issued i) (hinv : s.PositionsInv) :
    t.PositionsInv := by
  have h32 := hinv.sizeLog2_le
  obtain ⟨hcfg, hlog, hwp, hrp⟩ := hinv
  cases h with
  | publish | wcommit =>
    simpa [State.PositionsInv, State.size] using ⟨hcfg, hlog, State.advancePos_lt h32 _ _, hrp⟩
  | popPublish | radv =>
    simpa [State.PositionsInv, State.size] using ⟨hcfg, hlog, hwp, State.advancePos_lt h32 _ _⟩
  | @resize capacity silenceByte r hfree hexcl =>
    rcases hi with hwf | hbusy
    · have hcap : capacity.toNat ≤ 2 ^ s.cfg.log2SizeMax := of_decide_eq_true hwf
      have hle := Nat.clog_le_of_le_pow hcap
      rw [← toNat_clog2_capacity] at hle
      simpa [State.PositionsInv, State.size] using ⟨hcfg, hle⟩
    · exact absurd hfree hbusy
  | clear => simpa [State.PositionsInv, State.size] using ⟨hcfg, hlog⟩
  | _ => simpa [State.PositionsInv, State.size] using ⟨hcfg, hlog, hwp, hrp⟩

/-! What another port's step leaves of a grant. -/

/-- Under exclusive ownership both data ports are idle. -/
theorem State.GuardInv.idle_of_excl (hinv : s.GuardInv) (hexcl : s.phaseK = .excl) (p : DataPort) :
    s.phase p = .idle := by
  obtain ⟨hregs, -, -, -, -, hx, -⟩ := hinv
  simpa [(hx hexcl p).1] using hregs p

/-- The producer's side of the ring is as it was, and no free byte has been taken. -/
structure KeepsFree (s t : State) : Prop where
  size : t.sizeLog2 = s.sizeLog2
  wp : t.wp = s.wp
  free : s.free.toNat ≤ t.free.toNat

/-- The consumer's side of the ring is as it was, and no occupied byte has been taken. -/
structure KeepsAvail (s t : State) : Prop where
  size : t.sizeLog2 = s.sizeLog2
  rp : t.rp = s.rp
  avail : s.avail.toNat ≤ t.avail.toNat

theorem keepsFree_of_eq (hsize : t.sizeLog2 = s.sizeLog2) (hwp : t.wp = s.wp) (hrp : t.rp = s.rp) : KeepsFree s t :=
  ⟨hsize, hwp, by simp [State.free, State.mask, State.size, hsize, hwp, hrp]⟩

theorem keepsAvail_of_eq (hsize : t.sizeLog2 = s.sizeLog2) (hwp : t.wp = s.wp) (hrp : t.rp = s.rp) : KeepsAvail s t :=
  ⟨hsize, hrp, by simp [State.avail, State.mask, State.size, hsize, hwp, hrp]⟩

/-- What the last step of a push publishes is free and starts at WP. -/
theorem State.TransferInv.push (hinv : s.TransferInv) {st : Stage} {w : Word} (hpush : IsPush i) (hat : s.atStage i st)
    (hpos : st.pos = some w) : w = s.wp ∧ (Command.mk i st).ringCount ≤ s.free.toNat ∧ s.phaseP = .guarded := by
  obtain ⟨hP, -⟩ := hinv
  rw [State.atStage, hpush.port] at hat
  exact hP _ w hat hpos

/-- What POP takes is occupied and starts at RP. -/
theorem State.TransferInv.pop (hinv : s.TransferInv) {dst len r : Word} {st : Stage}
    (hat : s.atStage (.pop dst len) st) (hpos : st.pos = some r) :
    r = s.rp ∧ (Command.mk (.pop dst len) st).ringCount ≤ s.avail.toNat ∧ s.phaseC = .guarded := by
  obtain ⟨-, hC⟩ := hinv
  exact hC _ r hat hpos

/-- A step of another port takes no free byte from an active producer. -/
theorem LabelledStep.keepsFree (h : LabelledStep s i t) (hport : i.port ≠ .producer) (hinv : s.Inv)
    (hactive : s.phaseP ≠ .idle) : KeepsFree s t := by
  have hnotExcl : s.phaseK ≠ .excl := fun hx => hactive (hinv.guards.idle_of_excl hx .producer)
  have hadvance : ∀ {n : Nat}, t.sizeLog2 = s.sizeLog2 → t.wp = s.wp → t.rp = advancePos s.mask s.rp n →
      n ≤ s.avail.toNat → KeepsFree s t := fun hsize hwp hrp hn => by
    have hfree := (hinv.positions.advance_rp hsize hwp hrp hn).2
    exact ⟨hsize, hwp, by omega⟩
  cases h with
  | publish hpush => exact absurd hpush.port hport
  | wcommit => exact absurd rfl hport
  | resize _ hexcl | clear _ hexcl => exact absurd hexcl hnotExcl
  | popPublish hat =>
    obtain ⟨rfl, hn, -⟩ := hinv.transfers.pop hat rfl
    exact hadvance rfl rfl rfl hn
  | radv hfree hphase hregion hlen =>
    obtain ⟨-, -, -, hgrant, -⟩ := hinv.regions
    obtain ⟨hbase, hin, -⟩ := hgrant _ hregion
    exact hadvance rfl rfl (hbase ▸ rfl) (hlen.trans hin)
  | _ => exact keepsFree_of_eq (by simp) (by simp) (by simp)

/-- A step of another port takes no occupied byte from an active consumer. -/
theorem LabelledStep.keepsAvail (h : LabelledStep s i t) (hport : i.port ≠ .consumer) (hinv : s.Inv)
    (hactive : s.phaseC ≠ .idle) : KeepsAvail s t := by
  have hnotExcl : s.phaseK ≠ .excl := fun hx => hactive (hinv.guards.idle_of_excl hx .consumer)
  have hadvance : ∀ {n : Nat}, t.sizeLog2 = s.sizeLog2 → t.rp = s.rp → t.wp = advancePos s.mask s.wp n →
      n ≤ s.free.toNat → KeepsAvail s t := fun hsize hrp hwp hn => by
    have havail := (hinv.positions.advance_wp hsize hrp hwp hn).1
    exact ⟨hsize, hrp, by omega⟩
  cases h with
  | popPublish | radv => exact absurd rfl hport
  | resize _ hexcl | clear _ hexcl => exact absurd hexcl hnotExcl
  | publish hpush hat =>
    obtain ⟨rfl, hn, -⟩ := hinv.transfers.push hpush hat rfl
    exact hadvance rfl rfl rfl hn
  | wcommit hfree hphase hregion hlen =>
    obtain ⟨-, -, hgrant, -⟩ := hinv.regions
    obtain ⟨hbase, hin, -⟩ := hgrant _ hregion
    exact hadvance rfl rfl (hbase ▸ rfl) (hlen.trans hin)
  | _ => exact keepsAvail_of_eq (by simp) (by simp) (by simp)

/-- The producer's phase and region are its own. -/
theorem LabelledStep.producer_frame (h : LabelledStep s i t) (hport : i.port ≠ .producer) :
    t.phaseP = s.phaseP ∧ t.wregion = s.wregion ∧ t.winWritten = s.winWritten := by
  cases h with
  | wrgn | wcommit => exact absurd rfl hport
  | @genterRegister p | @gexit p =>
    cases p with
    | producer => exact absurd rfl hport
    | consumer => exact ⟨rfl, rfl, rfl⟩
  | _ => simp

/-- The consumer's phase and region are its own. -/
theorem LabelledStep.consumer_frame (h : LabelledStep s i t) (hport : i.port ≠ .consumer) :
    t.phaseC = s.phaseC ∧ t.rregion = s.rregion := by
  cases h with
  | rrgn | radv => exact absurd rfl hport
  | @genterRegister p | @gexit p =>
    cases p with
    | producer => exact ⟨rfl, rfl⟩
    | consumer => exact absurd rfl hport
  | _ => simp

/-! Transfers. -/

/-- A command of P that goes on with a position holds WP, and its bytes are free. -/
theorem LabelledStep.push_inFlight (h : LabelledStep s i t) (hport : i.port = .producer) (hinv : s.TransferInv)
    {st : Stage} {w : Word} (hst : t.atStage i st) (hpos : st.pos = some w) :
    w = t.wp ∧ (Command.mk i st).ringCount ≤ t.free.toNat ∧ t.phaseP = .guarded := by
  have hgoTo : ∀ {u : State} {st'}, t = u.goTo i st' → st = st' := fun ht =>
    State.atStage_unique hst (ht ▸ State.atStage_goTo)
  have hfinish : ∀ {u : State} {r}, t = u.finish i.port r → False := fun ht =>
    State.not_atStage_of_portFree (ht ▸ State.portFree_finish) hst
  cases h with
  | pushStart hpush hfree hphase hlegal hfit =>
    cases hgoTo rfl
    cases hpos
    simpa using ⟨hfit, hphase⟩
  | pushMove hat =>
    cases hgoTo rfl
    cases hpos
    simpa [State.free, State.mask, State.size, Command.ringCount] using hinv.push (.push _ _) hat rfl
  | @convert k w' n _ _ _ hk hat =>
    cases hgoTo rfl
    cases hpos
    obtain ⟨hmove, htransfer, -⟩ := hk.ringCount w n
    have hold := hinv.push (.converting hk) hat rfl
    rw [hmove] at hold
    simpa [State.free, State.mask, State.size, htransfer] using hold
  | @transfer k w' n _ _ hk hat =>
    cases hgoTo rfl
    cases hpos
    obtain ⟨-, htransfer, hpublish⟩ := hk.ringCount w n
    have hold := hinv.push (.converting hk) hat rfl
    rw [htransfer] at hold
    simpa [State.free, State.mask, State.size, hpublish] using hold
  | copyStart | copyMove | genterStart | genterCount | genterCheck => cases hgoTo rfl; cases hpos
  | popStart | popMove | renterStart | renterPoll | fmtStore => cases hport
  | publish hpush => exact (hfinish (by rw [hpush.port])).elim
  | _ => exact (hfinish rfl).elim

/-- A command of C that goes on with a position holds RP, and its bytes are occupied. -/
theorem LabelledStep.pop_inFlight (h : LabelledStep s i t) (hport : i.port = .consumer) (hinv : s.TransferInv)
    {st : Stage} {r : Word} (hst : t.atStage i st) (hpos : st.pos = some r) :
    r = t.rp ∧ (Command.mk i st).ringCount ≤ t.avail.toNat ∧ t.phaseC = .guarded := by
  have hgoTo : ∀ {u : State} {st'}, t = u.goTo i st' → st = st' := fun ht =>
    State.atStage_unique hst (ht ▸ State.atStage_goTo)
  have hfinish : ∀ {u : State} {a}, t = u.finish i.port a → False := fun ht =>
    State.not_atStage_of_portFree (ht ▸ State.portFree_finish) hst
  cases h with
  | popStart hfree hphase hpos' hlen hfit =>
    cases hgoTo rfl
    cases hpos
    simpa using ⟨hfit, hphase⟩
  | popMove hat =>
    cases hgoTo rfl
    cases hpos
    simpa [Command.ringCount] using hinv.pop hat rfl
  | copyStart | copyMove | genterStart | genterCount | genterCheck => cases hgoTo rfl; cases hpos
  | pushStart hpush | publish hpush => cases hpush.port.symm.trans hport
  | convert hk | transfer hk => cases hk.port.symm.trans hport
  | pushMove | renterStart | renterPoll | fmtStore => cases hport
  | _ => exact (hfinish rfl).elim

/-- A labelled step keeps every transfer inside the area it was granted. -/
theorem LabelledStep.keeps_transferInv (h : LabelledStep s i t) (hinv : s.Inv) : t.TransferInv := by
  obtain ⟨hP, hC⟩ := hinv.transfers
  have hown : ∀ {c q}, i.port = q → (t.lane q).inflight = some c → c.instr = i ∧ t.atStage i c.stage := by
    rintro c _ rfl hc
    rcases h.own_lane.2 with hfree | ⟨st, hat⟩
    · cases hfree.symm.trans hc
    · cases Option.some.inj (hat.symm.trans hc)
      exact ⟨rfl, hat⟩
  refine ⟨fun c w hc hpos => ?_, fun c r hc hpos => ?_⟩
  · by_cases hport : i.port = .producer
    · obtain ⟨rfl, hat⟩ := hown hport hc
      exact h.push_inFlight hport hinv.transfers hat hpos
    · have hlane : t.laneP = s.laneP := h.lane_other (q := .producer) (Ne.symm hport)
      obtain ⟨hw, hcount, hphase⟩ := hP c w (hlane ▸ hc) hpos
      obtain ⟨-, hwp, hfree⟩ := h.keepsFree hport hinv (by simp [hphase])
      exact ⟨hw.trans hwp.symm, hcount.trans hfree, (h.producer_frame hport).1.trans hphase⟩
  · by_cases hport : i.port = .consumer
    · obtain ⟨rfl, hat⟩ := hown hport hc
      exact h.pop_inFlight hport hinv.transfers hat hpos
    · have hlane : t.laneC = s.laneC := h.lane_other (q := .consumer) (Ne.symm hport)
      obtain ⟨hr, hcount, hphase⟩ := hC c r (hlane ▸ hc) hpos
      obtain ⟨-, hrp, havail⟩ := h.keepsAvail hport hinv (by simp [hphase])
      exact ⟨hr.trans hrp.symm, hcount.trans havail, (h.consumer_frame hport).1.trans hphase⟩

/-! Regions. -/

/-- The part of the region invariant that is the producer's. -/
def State.WriteRegionInv (s : State) : Prop :=
  (s.phaseP = .region ↔ s.wregion ≠ none) ∧
    (∀ g, s.wregion = some g → g.base = s.wp ∧ g.len ≤ s.free.toNat ∧ g.base.toNat + g.len ≤ s.size) ∧
    s.winWritten.Pairwise (· < ·) ∧
    (∀ o ∈ s.winWritten, ∃ g, s.wregion = some g ∧ g.base.toNat ≤ o ∧ o < g.base.toNat + g.len)

/-- The part of the region invariant that is the consumer's. -/
def State.ReadRegionInv (s : State) : Prop :=
  (s.phaseC = .region ↔ s.rregion ≠ none) ∧
    ∀ g, s.rregion = some g → g.base = s.rp ∧ g.len ≤ s.avail.toNat ∧ g.base.toNat + g.len ≤ s.size

theorem State.regionInv_iff : s.RegionInv ↔ s.WriteRegionInv ∧ s.ReadRegionInv := by
  constructor
  · rintro ⟨hphaseP, hphaseC, hwrite, hread, hrising, hwritten⟩
    exact ⟨⟨hphaseP, hwrite, hrising, hwritten⟩, hphaseC, hread⟩
  · rintro ⟨⟨hphaseP, hwrite, hrising, hwritten⟩, hphaseC, hread⟩
    exact ⟨hphaseP, hphaseC, hwrite, hread, hrising, hwritten⟩

/-- Without a region, whatever the positions are. -/
theorem writeRegionInv_of_closed (hphase : t.phaseP ≠ .region) (hregion : t.wregion = none)
    (hwritten : t.winWritten = []) : t.WriteRegionInv := by
  refine ⟨iff_of_false hphase (by simp [hregion]), fun g hg => ?_, ?_, fun o ho => ?_⟩
  · rw [hregion] at hg; cases hg
  · rw [hwritten]; exact List.Pairwise.nil
  · rw [hwritten] at ho; cases ho

theorem readRegionInv_of_closed (hphase : t.phaseC ≠ .region) (hregion : t.rregion = none) : t.ReadRegionInv := by
  refine ⟨iff_of_false hphase (by simp [hregion]), fun g hg => ?_⟩
  rw [hregion] at hg; cases hg

theorem State.WriteRegionInv.closed (h : s.WriteRegionInv) (hphase : s.phaseP ≠ .region) :
    s.wregion = none ∧ s.winWritten = [] := by
  obtain ⟨hopen, -, -, hwritten⟩ := h
  have hnone : s.wregion = none := by
    by_contra hne
    exact hphase (hopen.2 hne)
  refine ⟨hnone, List.eq_nil_iff_forall_not_mem.2 fun o ho => ?_⟩
  obtain ⟨g, hg, -⟩ := hwritten o ho
  rw [hnone] at hg
  cases hg

theorem State.ReadRegionInv.closed (h : s.ReadRegionInv) (hphase : s.phaseC ≠ .region) : s.rregion = none := by
  by_contra hne
  exact hphase (h.1.2 hne)

/-- An open region stays one while WP stays and no free byte is taken. -/
theorem State.WriteRegionInv.of_keepsFree (h : s.WriteRegionInv) (hkeep : KeepsFree s t)
    (hframe : t.phaseP = s.phaseP ∧ t.wregion = s.wregion ∧ t.winWritten = s.winWritten) : t.WriteRegionInv := by
  obtain ⟨hopen, hgrant, hwritten⟩ := h
  obtain ⟨hsize, hwp, hfree⟩ := hkeep
  obtain ⟨hphase, hregion, hrecord⟩ := hframe
  rw [State.WriteRegionInv, hphase, hregion, hrecord, hwp, State.size_eq_of_sizeLog2 hsize]
  refine ⟨hopen, fun g hg => ?_, hwritten⟩
  obtain ⟨hbase, hlen, hend⟩ := hgrant g hg
  exact ⟨hbase, hlen.trans hfree, hend⟩

theorem State.ReadRegionInv.of_keepsAvail (h : s.ReadRegionInv) (hkeep : KeepsAvail s t)
    (hframe : t.phaseC = s.phaseC ∧ t.rregion = s.rregion) : t.ReadRegionInv := by
  obtain ⟨hopen, hgrant⟩ := h
  obtain ⟨hsize, hrp, havail⟩ := hkeep
  obtain ⟨hphase, hregion⟩ := hframe
  rw [State.ReadRegionInv, hphase, hregion, hrp, State.size_eq_of_sizeLog2 hsize]
  refine ⟨hopen, fun g hg => ?_⟩
  obtain ⟨hbase, hlen, hend⟩ := hgrant g hg
  exact ⟨hbase, hlen.trans havail, hend⟩

/-- A step of P keeps its region. -/
theorem LabelledStep.keeps_writeRegionInv (h : LabelledStep s i t) (hport : i.port = .producer) (hinv : s.Inv)
    (hregion : s.WriteRegionInv) : t.WriteRegionInv := by
  cases h with
  | publish hpush hat =>
    obtain ⟨-, -, hphase⟩ := hinv.transfers.push hpush hat rfl
    obtain ⟨hnone, hnil⟩ := hregion.closed (by simp [hphase])
    exact writeRegionInv_of_closed (by simp [hphase]) (by simpa using hnone) (by simpa using hnil)
  | wrgn =>
    have hsize := (hinv.positions).2.2.1
    refine ⟨by simp, fun g hg => ?_, by simp, by simp⟩
    cases hg
    refine ⟨rfl, Nat.min_le_left .., ?_⟩
    have hle : s.contiguousFree ≤ s.size - s.wp.toNat := Nat.min_le_right ..
    change s.wp.toNat + s.contiguousFree ≤ s.size
    omega
  | wcommit => exact writeRegionInv_of_closed (by simp) (by simp) (by simp)
  | @genterRegister p _ hat =>
    obtain ⟨hidle, -⟩ := hinv.guards.of_genterStage (State.genterStage_of_atStage hat)
    cases p with
    | consumer => cases hport
    | producer =>
      have hidle' : s.phaseP = .idle := hidle
      obtain ⟨hnone, hnil⟩ := hregion.closed (by simp [hidle'])
      exact writeRegionInv_of_closed (by simp [State.setGuard]) (by simpa using hnone) (by simpa using hnil)
  | @gexit p _ hfree hphase =>
    cases p with
    | consumer => cases hport
    | producer =>
      obtain ⟨hnone, hnil⟩ := hregion.closed hphase
      exact writeRegionInv_of_closed (by simp [State.setGuard]) (by simpa using hnone) (by simpa using hnil)
  | popPublish | radv | resize | clear => cases hport
  | _ => exact hregion.of_keepsFree (keepsFree_of_eq (by simp) (by simp) (by simp)) (by simp_all)

/-- A step of C keeps its region. -/
theorem LabelledStep.keeps_readRegionInv (h : LabelledStep s i t) (hport : i.port = .consumer) (hinv : s.Inv)
    (hregion : s.ReadRegionInv) : t.ReadRegionInv := by
  cases h with
  | popPublish hat =>
    obtain ⟨-, -, hphase⟩ := hinv.transfers.pop hat rfl
    exact readRegionInv_of_closed (by simp [hphase]) (by simpa using hregion.closed (by simp [hphase]))
  | rrgn =>
    have hsize := (hinv.positions).2.2.2
    refine ⟨by simp, fun g hg => ?_⟩
    cases hg
    refine ⟨rfl, Nat.min_le_left .., ?_⟩
    have hle : s.contiguousAvail ≤ s.size - s.rp.toNat := Nat.min_le_right ..
    change s.rp.toNat + s.contiguousAvail ≤ s.size
    omega
  | radv => exact readRegionInv_of_closed (by simp) (by simp)
  | @genterRegister p _ hat =>
    obtain ⟨hidle, -⟩ := hinv.guards.of_genterStage (State.genterStage_of_atStage hat)
    cases p with
    | producer => cases hport
    | consumer =>
      have hidle' : s.phaseC = .idle := hidle
      exact readRegionInv_of_closed (by simp [State.setGuard])
        (by simpa using hregion.closed (by simp [hidle']))
  | @gexit p _ hfree hphase =>
    cases p with
    | producer => cases hport
    | consumer =>
      exact readRegionInv_of_closed (by simp [State.setGuard]) (by simpa using hregion.closed hphase)
  | publish hpush => cases hpush.port.symm.trans hport
  | wcommit | resize | clear => cases hport
  | _ => exact hregion.of_keepsAvail (keepsAvail_of_eq (by simp) (by simp) (by simp)) (by simp_all)

/-- A labelled step keeps every open region inside the area it was granted. -/
theorem LabelledStep.keeps_regionInv (h : LabelledStep s i t) (hinv : s.Inv) : t.RegionInv := by
  obtain ⟨hwrite, hread⟩ := State.regionInv_iff.1 hinv.regions
  refine State.regionInv_iff.2 ⟨?_, ?_⟩
  · by_cases hport : i.port = .producer
    · exact h.keeps_writeRegionInv hport hinv hwrite
    · have hframe := h.producer_frame hport
      by_cases hphase : s.phaseP = .idle
      · obtain ⟨hnone, hnil⟩ := hwrite.closed (by simp [hphase])
        obtain ⟨hp, hr, hw⟩ := hframe
        exact writeRegionInv_of_closed (by simp [hp, hphase]) (hr.trans hnone) (hw.trans hnil)
      · exact hwrite.of_keepsFree (h.keepsFree hport hinv hphase) hframe
  · by_cases hport : i.port = .consumer
    · exact h.keeps_readRegionInv hport hinv hread
    · have hframe := h.consumer_frame hport
      by_cases hphase : s.phaseC = .idle
      · obtain ⟨hp, hr⟩ := hframe
        exact readRegionInv_of_closed (by simp [hp, hphase]) (hr.trans (hread.closed (by simp [hphase])))
      · exact hread.of_keepsAvail (h.keepsAvail hport hinv hphase) hframe

end

end Sys2Proof.Machine
end

section
/-! PROOF. The invariant of the machine (spec/10_state.md sections 2 to 4 and 7; spec/42_ring.md section 7): it holds
at reset and every step keeps it. -/

namespace Sys2Proof.Machine

section
variable {s t : State} {i : Instr}

/-! The latch. -/

/-- A labelled step leaves the latch, or sets it with the overlap code. -/
theorem LabelledStep.latch_cases (h : LabelledStep s i t) :
    (t.fatal = s.fatal ∧ t.fatalCode = s.fatalCode) ∨ (t.fatal = true ∧ t.fatalCode = copyOverlapCode) := by
  cases h with
  | copyOverlap => exact .inr (by simp)
  | _ => exact .inl (by simp)

theorem LabelledStep.keeps_faultInv (h : LabelledStep s i t) (hinv : s.FaultInv) : t.FaultInv := by
  rcases h.latch_cases with ⟨hfatal, hcode⟩ | ⟨hfatal, hcode⟩
  · rwa [State.FaultInv, hfatal, hcode]
  · exact ⟨fun _ => hcode, fun hunset => Bool.noConfusion (hfatal.symm.trans hunset)⟩

/-! The format fields. -/

theorem storeField_idem (old f : Format) (x : FmtField) : storeField (storeField old f x) f x = storeField old f x := by
  cases x <;> rfl

theorem storeField_comm (old f : Format) (x y : FmtField) :
    storeField (storeField old f x) f y = storeField (storeField old f y) f x := by
  cases x <;> cases y <;> rfl

/-- The fields a SETFMT has stored hold their operands, whatever field it stores next. -/
theorem storeField_stored {old f : Format} {pending : List FmtField} {x y : FmtField}
    (hstored : ∀ y, y ∉ pending → storeField old f y = old) (hy : y ∉ pending.erase x) :
    storeField (storeField old f x) f y = storeField old f x := by
  by_cases hxy : y = x
  · rw [hxy, storeField_idem]
  · rw [storeField_comm, hstored y fun hmem => hy ((List.mem_erase_of_ne hxy).2 hmem)]

/-- A SETFMT that goes on has just stored one of the fields that were to come. -/
theorem LabelledStep.fmtStore_inv (h : LabelledStep s i t) {f : Format} {pending : List FmtField}
    (hi : i = .setfmt f) (hst : t.atStage i (.fmtStore pending)) : ∃ pending₀ x, pending = pending₀.erase x ∧
      t.fmt = storeField s.fmt f x ∧ (pending₀ = allFmtFields ∨ s.atStage i (.fmtStore pending₀)) := by
  have hgoTo : ∀ {u : State} {st}, t = u.goTo i st → .fmtStore pending = st := fun ht =>
    State.atStage_unique hst (ht ▸ State.atStage_goTo)
  have hfinish : ∀ {u : State} {r}, t = u.finish i.port r → False := fun ht =>
    State.not_atStage_of_portFree (ht ▸ State.portFree_finish) hst
  cases h with
  | fmtStore hplace =>
    cases hi
    cases hgoTo rfl
    exact ⟨_, _, rfl, rfl, hplace.imp (fun ⟨_, _, hall⟩ => hall) id⟩
  | renterPoll => cases hi
  | copyStart | copyMove | pushStart | pushMove | convert | transfer | popStart | popMove | genterStart | genterCount |
      genterCheck | renterStart => cases hgoTo rfl
  | publish hpush => exact (hfinish (by rw [hpush.port])).elim
  | _ => exact (hfinish rfl).elim

theorem LabelledStep.keeps_formatInv (h : LabelledStep s i t) (hinv : s.FormatInv) : t.FormatInv := by
  intro f pending hc y hy
  by_cases hport : i.port = .config
  · have hst : ∃ st, t.atStage i st := by
      rcases h.own_lane.2 with hfree | hat
      · rw [State.portFree, hport] at hfree
        cases hfree.symm.trans hc
      · exact hat
    obtain ⟨st, hat⟩ := hst
    have hat' := hat
    rw [State.atStage, hport] at hat'
    obtain ⟨hi, rfl⟩ := Command.mk.inj (Option.some.inj (hat'.symm.trans hc))
    obtain ⟨pending₀, x, rfl, hfmt, hold⟩ := h.fmtStore_inv hi hat
    rw [hfmt]
    refine storeField_stored (fun y hy => ?_) hy
    rcases hold with rfl | hat₀
    · exact absurd (mem_allFmtFields y) hy
    · subst hi
      exact hinv f pending₀ hat₀ y hy
  · have hlane : t.laneK = s.laneK := h.lane_other (q := .config) (Ne.symm hport)
    rcases h.format with ⟨-, hfmt⟩ | ⟨⟨f', rfl⟩, -⟩
    · rw [hfmt]
      exact hinv f pending (hlane ▸ hc) y hy
    · exact absurd rfl hport

/-! The four kinds of step. -/

theorem LabelledStep.keeps_inv (h : LabelledStep s i t) (hi : s.Issued i) (hinv : s.Inv) : t.Inv where
  lanes := h.keeps_lanesInv hinv.lanes
  positions := h.keeps_positionsInv hi hinv.positions
  memory := h.keeps_memoryInv hinv.memory
  s24 := h.keeps_s24Inv hinv.lanes hinv.s24
  guards := h.keeps_guardInv hinv.guards
  transfers := h.keeps_transferInv hinv
  regions := h.keeps_regionInv hinv
  fault := h.keeps_faultInv hinv.fault
  format := h.keeps_formatInv hinv.format

theorem Outside.keeps_transferInv (h : Outside s t) (hinv : s.TransferInv) : t.TransferInv := by
  have hP : t.laneP.inflight = s.laneP.inflight := h.inflight .producer
  have hC : t.laneC.inflight = s.laneC.inflight := h.inflight .consumer
  rw [State.TransferInv, hP, hC, h.frame]
  exact hinv

/-- What the region and format invariants rest on is the block's, and the commands in flight. -/
theorem Outside.keeps_inv (h : Outside s t) (hinv : s.Inv) : t.Inv where
  lanes := h.keeps_lanesInv hinv.lanes
  positions := by rw [h.frame]; exact hinv.positions
  memory := h.keeps_memoryInv hinv.memory
  s24 := h.keeps_s24Inv hinv.s24
  guards := h.keeps_guardInv hinv.guards
  transfers := h.keeps_transferInv hinv.transfers
  regions := by rw [h.frame]; exact hinv.regions
  fault := by rw [h.frame]; exact hinv.fault
  format := by
    have hK : t.laneK.inflight = s.laneK.inflight := h.inflight .config
    rw [State.FormatInv, hK, h.frame]
    exact hinv.format

/-- A window write lies in the open region, and so does what the record gains. -/
theorem winWrite_keeps_inv {off : Word} {v : List Byte} (h : winWrite off v s = .next t) (hinv : s.Inv) : t.Inv where
  lanes := by obtain ⟨-, -, -, rfl⟩ := winWrite_cases h; exact hinv.lanes
  positions := by obtain ⟨-, -, -, rfl⟩ := winWrite_cases h; exact hinv.positions
  memory := winWrite_keeps_memoryInv h hinv.memory
  s24 := winWrite_keeps_s24Inv h hinv.s24
  guards := winWrite_keeps_guardInv h hinv.guards
  transfers := by obtain ⟨-, -, -, rfl⟩ := winWrite_cases h; exact hinv.transfers
  regions := by
    obtain ⟨-, -, ⟨g, hregion, hlow, hhigh⟩, rfl⟩ := winWrite_cases h
    obtain ⟨hopenP, hopenC, hwrite, hread, hrising, hwritten⟩ := hinv.regions
    refine ⟨hopenP, hopenC, hwrite, hread, addOffsets_rising hrising, fun o ho => ?_⟩
    rcases mem_addOffsets.1 ho with hold | ⟨hge, hlt⟩
    · exact hwritten o hold
    · exact ⟨g, hregion, by omega, by omega⟩
  fault := by obtain ⟨-, -, -, rfl⟩ := winWrite_cases h; exact hinv.fault
  format := by obtain ⟨-, -, -, rfl⟩ := winWrite_cases h; exact hinv.format

/-- Reset leaves nothing in flight, nothing granted and an empty ring of one byte. -/
theorem blockReset_inv (landed : List Nat) (hcfg : s.cfg.wf = true) (hmem : s.MemoryInv) :
    (s.blockReset landed).Inv where
  lanes p c hc := by cases p <;> cases hc
  positions := ⟨hcfg, Nat.zero_le _, Nat.one_pos, Nat.one_pos⟩
  memory := blockReset_keeps_memoryInv landed hmem
  s24 := blockReset_s24Inv s landed
  guards := blockReset_guardInv s landed
  transfers := by constructor <;> (intro _ _ hc; cases hc)
  regions := State.regionInv_iff.2
    ⟨writeRegionInv_of_closed (fun h => DataPhase.noConfusion h) rfl rfl,
      readRegionInv_of_closed (fun h => DataPhase.noConfusion h) rfl⟩
  fault := ⟨fun h => Bool.noConfusion h, fun _ => rfl⟩
  format _ _ hc := by cases hc

/-- Settles O58: the state after reset is what a reset event makes of it. -/
theorem invAtReset : Obligations.InvAtReset := by
  have hmem : State.reset.MemoryInv := ⟨rfl, rfl, fun j => by cases j <;> rfl⟩
  exact blockReset_inv (s := State.reset) [] rfl hmem

/-- Settles O59. -/
theorem invKept : Obligations.InvKept := by
  intro s t hinv h
  rcases step_cases h with ho | ⟨s₀, i, ho, -, hi, hstep⟩ | ⟨s₀, off, v, ho, hw⟩ | ⟨-, s₀, landed, ho, rfl⟩
  · exact ho.keeps_inv hinv
  · exact hstep.keeps_inv (hi hinv.lanes) (ho.keeps_inv hinv)
  · exact winWrite_keeps_inv hw (ho.keeps_inv hinv)
  · exact blockReset_inv landed (ho.keeps_inv hinv).positions.1 (ho.keeps_inv hinv).memory

end

end Sys2Proof.Machine
end

section
/-! PROOF. No step reaches outside RING or STG (spec/20_memory.md R73; spec/10_state.md R22): what a command in flight
still has to move fits where its first step granted it. -/

namespace Sys2Proof.Machine

section
variable {s : State} {i : Instr} {n : Nat}

/-- `r` is no fault. -/
def NoFault (r : Result) : Prop := ∀ f, r ≠ .fault f

@[simp] theorem noFault_next (t : State) : NoFault (.next t) := fun _ h => by cases h

@[simp] theorem noFault_refused (e : Refusal) : NoFault (.refused e) := fun _ h => by cases h

@[simp] theorem noFault_ite {c : Prop} [Decidable c] {a b : Result} :
    NoFault (if c then a else b) ↔ (c → NoFault a) ∧ (¬ c → NoFault b) := by
  split <;> simp_all

/-! The storage accesses of the block. -/

/-- Bytes that fit the free area are put into the ring. -/
theorem State.PositionsInv.ringPut_ne_none (h : s.PositionsInv) {v : List Byte} (hv : v.length ≤ s.free.toNat) :
    s.ringPut s.wp v ≠ none := by
  have hsum := State.avail_add_free h.sizeLog2_le
  obtain ⟨-, -, hwp, -⟩ := h
  obtain ⟨t, ht, -⟩ := s.ringPut_bytes s.wp v hwp (by omega)
  simp [ht]

/-- Bytes that fit the occupied area are taken from the ring. -/
theorem State.PositionsInv.ringGet_ne_none (h : s.PositionsInv) (hn : n ≤ s.avail.toNat) :
    s.ringGet s.rp n ≠ none := by
  have hsum := State.avail_add_free h.sizeLog2_le
  obtain ⟨-, -, -, hrp⟩ := h
  simp [s.ringGet_bytes s.rp n hrp (by omega)]

/-! The commands that access neither storage. -/

theorem oneStep_noFault {body : Result} (h : NoFault body) : NoFault (oneStep i s body) := by
  rw [oneStep]
  split
  · exact h
  · exact noFault_refused _

theorem underExcl_noFault (t : State) : NoFault (underExcl i s t) := by
  refine oneStep_noFault ?_
  split <;> simp

theorem snapshot_noFault (v : Word) : NoFault (snapshot i v s) := by
  refine oneStep_noFault ?_
  split <;> simp

theorem copyCommand_noFault (dst src n : Word) (moved : State → Memory) :
    NoFault (copyCommand i dst src n moved s) := by
  rw [copyCommand]
  repeat' split
  all_goals simp

theorem execWrgn_noFault (needed : Word) : NoFault (execWrgn needed s) := by
  refine oneStep_noFault ?_
  split <;> simp

theorem execWcommit_noFault (written : Word) : NoFault (execWcommit written s) := by
  refine oneStep_noFault ?_
  split <;> simp

theorem execRrgn_noFault (needed : Word) : NoFault (execRrgn needed s) := by
  refine oneStep_noFault ?_
  split <;> simp

theorem execRadv_noFault (bytes : Word) : NoFault (execRadv bytes s) := by
  refine oneStep_noFault ?_
  split <;> simp

theorem execS24hint_noFault (p : Port) (hint : S24Hint) : NoFault (execS24hint p hint s) := by
  refine oneStep_noFault ?_
  repeat' split
  all_goals simp

theorem execGenter_noFault (p : DataPort) : NoFault (execGenter p s) := by
  rw [execGenter]
  repeat' split
  all_goals simp

theorem execGexit_noFault (p : DataPort) : NoFault (execGexit p s) := by
  refine oneStep_noFault ?_
  split <;> simp

theorem execRenter_noFault : NoFault (execRenter s) := by
  rw [execRenter]
  repeat' split
  all_goals simp

theorem execSetfmt_noFault (f : Format) : NoFault (execSetfmt f s) := by
  rw [execSetfmt]
  repeat' split
  all_goals simp

theorem execRdreg_noFault (p : Port) (reg : RegNum) : NoFault (execRdreg p reg s) := by
  rw [execRdreg]
  split <;> simp

/-! The commands that do. -/

/-- PUSH's second step puts as many bytes as its first found free. -/
theorem execPush_noFault (hinv : s.Inv) (src len : Word) : NoFault (execPush src len s) := by
  rw [execPush]
  split
  · split
    · simp
    · simp
  next w n hprogress =>
    have hat : s.atStage (.push src len) (.move w n) := (State.progress_at_iff ..).1 hprogress
    obtain ⟨rfl, hfit, -⟩ := hinv.transfers.push (.push src len) hat rfl
    split
    · simp
    · split
      next hnone => exact absurd hnone (hinv.positions.ringPut_ne_none (by rwa [State.memReadHost_length]))
      · simp
  · simp
  · simp

/-- POP's second step takes as many bytes as its first found occupied. -/
theorem execPop_noFault (hinv : s.Inv) (dst len : Word) : NoFault (execPop dst len s) := by
  rw [execPop]
  split
  · split
    · simp
    · simp
  next r n hprogress =>
    have hat : s.atStage (.pop dst len) (.move r n) := (State.progress_at_iff ..).1 hprogress
    obtain ⟨rfl, hfit, -⟩ := hinv.transfers.pop hat rfl
    split
    · simp
    · split
      next hnone => exact absurd hnone (hinv.positions.ringGet_ne_none hfit)
      · simp
  · simp
  · simp

/-- A converting push fills no more than its staging buffer, and transfers no more than it found free. -/
theorem convertPush_noFault {k : Converting} (hk : IsConverting k) (hinv : s.Inv) : NoFault (convertPush k s) := by
  rw [convertPush]
  split
  · split
    · simp
    · simp
  next w n hprogress =>
    have hat : s.atStage k.instr (.move w n) := (State.progress_at_iff ..).1 hprogress
    obtain ⟨-, -, -, hstg⟩ := hk.legal_move_iff.1 (hinv.lanes _ _ hat).2
    split
    · simp
    · split
      next hnone =>
        have hlen := hk.length_convert n s
        rw [State.stgWrite, if_pos (by omega)] at hnone
        cases hnone
      · simp
  next w n hprogress =>
    have hat : s.atStage k.instr (.transfer w n) := (State.progress_at_iff ..).1 hprogress
    have hlegal := (hinv.lanes _ _ hat).2
    rw [(hk.legal w n).1] at hlegal
    obtain ⟨-, -, -, hstg⟩ := hk.legal_move_iff.1 hlegal
    obtain ⟨rfl, hfit, -⟩ := hinv.transfers.push (.converting hk) hat rfl
    rw [(hk.ringCount _ _).2.1] at hfit
    split
    next hnone =>
      rw [State.stgRead, if_pos (by omega)] at hnone
      cases hnone
    next out hread =>
      obtain ⟨-, rfl⟩ := (s.stgRead_eq_some _ _ _ _).1 hread
      split
      next hnone => exact absurd hnone (hinv.positions.ringPut_ne_none (by simpa using hfit))
      · simp
  · simp
  · simp

theorem exec_noFault (hinv : s.Inv) (i : Instr) : NoFault (exec i s) := by
  cases i with
  | copyf p dst src n => rw [exec]; exact copyCommand_noFault dst src n _
  | copyw p dst src n => rw [exec]; exact copyCommand_noFault dst src n _
  | push src len => exact execPush_noFault hinv src len
  | pop dst len => exact execPop_noFault hinv dst len
  | wrgn needed => exact execWrgn_noFault needed
  | wcommit written => exact execWcommit_noFault written
  | rrgn needed => exact execRrgn_noFault needed
  | radv bytes => exact execRadv_noFault bytes
  | avail p => exact snapshot_noFault _
  | free p => exact snapshot_noFault _
  | resize capacity silenceByte => exact underExcl_noFault _
  | clear => exact underExcl_noFault _
  | push24 src len => exact convertPush_noFault (.push24 src len) hinv
  | push16 src len => exact convertPush_noFault (.push16 src len) hinv
  | pushdsd src len channels rev swap => exact convertPush_noFault (.pushdsd src len channels rev swap) hinv
  | s24hint p hint => exact execS24hint_noFault p hint
  | genter p => exact execGenter_noFault p
  | gexit p => exact execGexit_noFault p
  | renter => exact execRenter_noFault
  | rexit => exact underExcl_noFault _
  | setfmt f => exact execSetfmt_noFault f
  | rdreg p reg => exact execRdreg_noFault p reg

/-! The entries of the schedule. -/

theorem turn_noFault (hinv : s.Inv) (p : Port) : NoFault (turn p s) := by
  rw [turn]
  split
  · exact exec_noFault hinv _
  next hnone =>
    split
    · simp
    next d ds hstream =>
      rw [takeCommand]
      split
      · simp
      · split
        · simp
        next i hdecode => exact exec_noFault ((outside_setLane hnone ds none).keeps_inv hinv) i

/-- A window write inside the open region does not pass the end of the ring. -/
theorem winWrite_noFault (hinv : s.RegionInv) (off : Word) (v : List Byte) : NoFault (winWrite off v s) := by
  rw [winWrite]
  split
  next hin =>
    obtain ⟨g, hregion, hlow, hhigh⟩ := insideRegion_iff.1 hin.2
    obtain ⟨-, -, hwrite, -⟩ := hinv
    obtain ⟨-, -, hend⟩ := hwrite g hregion
    rw [State.ringWrite, if_pos (by omega)]
    simp
  · simp

theorem winRead_noFault (hinv : s.RegionInv) (off n : Word) : NoFault (winRead off n s) := by
  rw [winRead]
  split
  next hin =>
    obtain ⟨g, hregion, hlow, hhigh⟩ := insideRegion_iff.1 hin.2
    obtain ⟨-, -, -, hread, -⟩ := hinv
    obtain ⟨-, -, hend⟩ := hread g hregion
    rw [State.ringRead, if_pos (by omega)]
    simp
  · simp

theorem hostStore_noFault (addr : Word) (v : List Byte) : NoFault (hostStore addr v s) := by
  rw [hostStore]
  repeat' split
  all_goals simp

/-- Settles O60. -/
theorem invRulesOutFaults : Obligations.InvRulesOutFaults := by
  intro s f hinv
  suffices h : NoFault (step s) from h f
  rw [step, nextEvent]
  split
  · simp
  next e es hschedule =>
    have hinv' := (outside_schedule s es).keeps_inv hinv
    cases e with
    | turn p c => exact turn_noFault ((outside_schedule_choice s es c).keeps_inv hinv) p
    | winWrite off v => exact winWrite_noFault hinv'.regions off v
    | winRead off n => exact winRead_noFault hinv'.regions off n
    | hostStore addr v => exact hostStore_noFault addr v
    | reset landed => exact noFault_next _

end

end Sys2Proof.Machine
end

section
/-! PROOF. What each agent writes (spec/60_exceptions.md R290): the state a port's step may change, port by port. -/

namespace Sys2Proof.Machine

section
variable {s t : State} {i : Instr}

/-! Ring bytes. -/

/-- Whatever `ring_put` writes lies in its own range around the wrap, from any offset (R181). -/
theorem State.ringPut_other {w : Word} {v : List Byte} (h : s.ringPut w v = some t) {o : Nat}
    (ho : ¬ s.inRingRange w.toNat v.length o) : t.ringByte o = s.ringByte o := by
  have hout : ∀ k < v.length, o ≠ (w.toNat + k) % s.size := fun k hk heq => ho ⟨k, hk, heq⟩
  rw [State.ringPut] at h
  split at h
  · cases h
  next u hfirst =>
    obtain ⟨hle, rfl⟩ := (s.ringWrite_eq_some _ _ _).1 hfirst
    simp only [List.length_take] at hle
    have hkeep : memGet s.silence (memWrite s.silence s.ring w.toNat (v.take (min v.length (s.size - w.toNat)))) o =
        s.ringByte o := by
      refine memGet_memWrite_out _ _ _ _ _ ?_
      rw [List.length_take]
      by_contra hin
      refine hout (o - w.toNat) (by omega) ?_
      rw [Nat.mod_eq_of_lt (by omega)]
      omega
    split at h
    next hwrap =>
      obtain ⟨hle', rfl⟩ := (State.ringWrite_eq_some _ t _ _).1 h
      refine Eq.trans (memGet_memWrite_out _ _ _ _ _ ?_) hkeep
      rw [List.length_drop]
      by_contra hin
      rw [List.length_drop] at hle'
      change 0 + (v.length - min v.length (s.size - w.toNat)) ≤ s.size at hle'
      refine hout (o + (s.size - w.toNat)) (by omega) ?_
      rw [show w.toNat + (o + (s.size - w.toNat)) = o + s.size by omega, Nat.add_mod_right, Nat.mod_eq_of_lt (by omega)]
    · cases h
      exact hkeep

theorem State.inRingRange.mono {w m n o : Nat} (h : s.inRingRange w m o) (hmn : m ≤ n) : s.inRingRange w n o := by
  obtain ⟨k, hk, ho⟩ := h
  exact ⟨k, hk.trans_le hmn, ho⟩

/-- A step of P leaves every ring byte outside the free area. -/
theorem LabelledStep.ring_other (h : LabelledStep s i t) (hport : i.port = .producer) (hinv : s.TransferInv) {o : Nat}
    (ho : ¬ s.inRingRange s.wp.toNat s.free.toNat o) : t.ringByte o = s.ringByte o := by
  cases h with
  | pushMove hat hput hlen =>
    obtain ⟨rfl, hfit, -⟩ := hinv.push (.push _ _) hat rfl
    rw [State.goTo_ringByte]
    exact State.ringPut_other hput fun hin => ho (hin.mono (hlen.trans_le hfit))
  | transfer hk hat hput hlen =>
    obtain ⟨rfl, hfit, -⟩ := hinv.push (.converting hk) hat rfl
    rw [(hk.ringCount _ _).2.1] at hfit
    rw [State.goTo_ringByte]
    exact State.ringPut_other hput fun hin => ho (hin.mono (hlen.trans_le hfit))
  | resize | clear => cases hport
  | _ => simp [State.ringByte]

/-- A window write leaves every ring byte outside the free area. -/
theorem winWrite_ring_other {off : Word} {v : List Byte} (h : winWrite off v s = .next t) (hinv : s.RegionInv) {o : Nat}
    (ho : ¬ s.inRingRange s.wp.toNat s.free.toNat o) : t.ringByte o = s.ringByte o := by
  obtain ⟨-, hsize, ⟨g, hregion, hlow, hhigh⟩, rfl⟩ := winWrite_cases h
  obtain ⟨-, -, hgrant, -⟩ := hinv
  obtain ⟨hbase, hlen, -⟩ := hgrant g hregion
  refine memGet_memWrite_out _ _ _ _ _ ?_
  by_contra hin
  rw [hbase] at hlow hhigh
  refine ho ⟨o - s.wp.toNat, by omega, ?_⟩
  rw [Nat.mod_eq_of_lt (by omega)]
  omega

/-! HOST bytes. -/

/-- HOST memory is changed by a copy or by POP. -/
theorem LabelledStep.host_cases (h : LabelledStep s i t) :
    t.host = s.host ∨ (∃ dst src n, Copies i dst src n) ∨ ∃ dst len, i = .pop dst len := by
  cases h with
  | copyMove hcopy => exact .inr (.inl ⟨_, _, _, hcopy⟩)
  | popMove => exact .inr (.inr ⟨_, _, rfl⟩)
  | _ => exact .inl (by simp)

/-! The rest of the state. -/

/-- What a step of P leaves (R290). -/
theorem LabelledStep.producer_writes (h : LabelledStep s i t) (hport : i.port = .producer) : t = { s with
    ring := t.ring, wp := t.wp, stg0 := t.stg0, stg1 := t.stg1, stg2 := t.stg2, s24Mode := t.s24Mode
    s24Hint := t.s24Hint, s24Confirmed := t.s24Confirmed, s24SilentCount := t.s24SilentCount, regP := t.regP
    activeUsers := t.activeUsers, wregion := t.wregion, winWritten := t.winWritten, phaseP := t.phaseP
    host := t.host, fatal := t.fatal, fatalCode := t.fatalCode, laneP := t.laneP } := by
  cases h with
  | @convert k =>
    simp only [State.goTo, State.setStg, hport]
    cases k.buf <;> rfl
  | @hint p =>
    cases (hport : p = .producer)
    rfl
  | @genterUndo p | @genterRegister p | @gexit p =>
    cases p with
    | producer => rfl
    | consumer => cases hport
  | popStart | popMove | popPublish | rrgn | radv | resize | clear | renterStart | renterPoll | renterGrant | rexit |
      fmtStore | fmtDone => cases hport
  | _ => simp only [State.goTo, State.finish, hport]; rfl

/-- What a step of C leaves (R290). -/
theorem LabelledStep.consumer_writes (h : LabelledStep s i t) (hport : i.port = .consumer) : t = { s with
    rp := t.rp, regC := t.regC, activeUsers := t.activeUsers, rregion := t.rregion, phaseC := t.phaseC
    host := t.host, fatal := t.fatal, fatalCode := t.fatalCode, laneC := t.laneC } := by
  cases h with
  | hint hfree hp => exact absurd hport hp
  | @genterUndo p | @genterRegister p | @gexit p =>
    cases p with
    | producer => cases hport
    | consumer => rfl
  | pushStart hpush | publish hpush => cases hpush.port.symm.trans hport
  | convert hk | transfer hk => cases hk.port.symm.trans hport
  | pushMove | wrgn | wcommit | resize | clear | renterStart | renterPoll | renterGrant | rexit | fmtStore | fmtDone =>
    cases hport
  | _ => simp only [State.goTo, State.finish, hport]; rfl

/-- What a step of K leaves (R290). -/
theorem LabelledStep.config_writes (h : LabelledStep s i t) (hport : i.port = .config) : t = { s with
    reconfig := t.reconfig, sizeLog2 := t.sizeLog2, ring := t.ring, wp := t.wp, rp := t.rp, silence := t.silence
    s24Mode := t.s24Mode, s24Hint := t.s24Hint, s24Confirmed := t.s24Confirmed
    s24SilentCount := t.s24SilentCount, fmt := t.fmt, fmtGen := t.fmtGen, phaseK := t.phaseK, host := t.host
    fatal := t.fatal, fatalCode := t.fatalCode, laneK := t.laneK } := by
  cases h with
  | @hint p =>
    cases (hport : p = .config)
    rfl
  | @genterStart p | @genterCount p | @genterCheck p | @genterUndo p | @genterRegister p | @gexit p =>
    exact absurd hport (DataPort.port_ne_config p)
  | pushStart hpush | publish hpush => cases hpush.port.symm.trans hport
  | convert hk | transfer hk => cases hk.port.symm.trans hport
  | pushMove | popStart | popMove | popPublish | wrgn | wcommit | rrgn | radv => cases hport
  | renterPoll => rfl
  | _ => simp only [State.goTo, State.finish, hport]; rfl

/-- What a step of K leaves without exclusive ownership (R290). -/
theorem LabelledStep.config_writes_of_not_excl (h : LabelledStep s i t) (hport : i.port = .config)
    (hinv : s.GuardInv) (hexcl : s.phaseK ≠ .excl) : t = { s with
    reconfig := t.reconfig, phaseK := t.phaseK, host := t.host, fatal := t.fatal, fatalCode := t.fatalCode
    laneK := t.laneK } := by
  cases h with
  | @hint p _ _ _ _ hneed =>
    cases (hport : p = .config)
    exact absurd (needExcl_eq_none.1 hneed) hexcl
  | fmtStore hplace => exact absurd (hinv.excl_of_setfmt hplace) hexcl
  | fmtDone hat => exact absurd (hinv.excl_of_setfmt (.inr hat)) hexcl
  | resize _ hx | clear _ hx | rexit _ hx => exact absurd hx hexcl
  | @genterStart p | @genterCount p | @genterCheck p | @genterUndo p | @genterRegister p | @gexit p =>
    exact absurd hport (DataPort.port_ne_config p)
  | pushStart hpush | publish hpush => cases hpush.port.symm.trans hport
  | convert hk | transfer hk => cases hk.port.symm.trans hport
  | pushMove | popStart | popMove | popPublish | wrgn | wcommit | rrgn | radv => cases hport
  | renterPoll => rfl
  | _ => simp only [State.goTo, State.finish, hport]; rfl

/-! A port's turn. -/

/-- The state a turn of port `p` with choice `c` starts from: the schedule moved on, and `l` on the port. -/
def State.onTurn (s : State) (p : Port) (c : Nat) (es : List Event) (l : Lane) : State :=
  State.setLane { s with schedule := es, choice := c } p l

theorem State.onTurn_self (s : State) (p : Port) (c : Nat) (es : List Event) :
    s.onTurn p c es (s.lane p) = { s with schedule := es, choice := c } := by cases p <;> rfl

theorem State.onTurn_lane {p : Port} {c : Nat} {es : List Event} {l : Lane} : (s.onTurn p c es l).lane p = l :=
  State.setLane_lane_same ..

theorem outside_onTurn {p : Port} {c : Nat} {es : List Event} {l : Lane} (h : l.inflight = (s.lane p).inflight) :
    Outside s (s.onTurn p c es l) where
  frame := by cases p <;> rfl
  inflight q := by
    by_cases hq : q = p
    · rw [hq, State.onTurn_lane, h]
    · rw [State.onTurn, State.setLane_lane_other _ p q _ hq, State.lane_with_schedule_choice]
  host hwf := by rwa [State.onTurn, State.setLane_host]

/-- A turn changes its port's lane alone, or is a labelled step of that port's command. -/
theorem step_turn_cases {p : Port} {c : Nat} {es : List Event} (hschedule : s.schedule = .turn p c :: es)
    (hlanes : s.LanesInv) (h : step s = .next t) : ∃ l, t = s.onTurn p c es l ∨
      ∃ i, l.inflight = (s.lane p).inflight ∧ i.port = p ∧ s.nextCommand = some i ∧
        LabelledStep (s.onTurn p c es l) i t := by
  rcases step_next h with ⟨hnil, -⟩ | ⟨e, es', hschedule', hhandle⟩
  · rw [hschedule] at hnil; cases hnil
  cases hschedule.symm.trans hschedule'
  have hlane := s.lane_with_schedule_choice es c p
  have hturn : turn p { s with schedule := es, choice := c } = .next t := hhandle
  rcases turn_next hturn with ⟨cmd, hcmd, hexec⟩ | ⟨-, -, rfl⟩ | ⟨d, ds, hnone, -, -, rfl⟩ |
    ⟨d, ds, e, hnone, -, -, -, rfl⟩ | ⟨d, ds, i, hnone, hstream, hfatal, hdecode, hexec⟩
  · rw [hlane] at hcmd
    refine ⟨s.lane p, .inr ⟨cmd.instr, rfl, (hlanes p cmd hcmd).1, ?_, ?_⟩⟩
    · simp [State.nextCommand, hschedule, hcmd]
    · rw [State.onTurn_self]
      exact labelledStep_of_exec hexec
  · exact ⟨s.lane p, .inl (s.onTurn_self p c es).symm⟩
  · rw [State.setLane_finish]
    exact ⟨_, .inl rfl⟩
  · rw [State.setLane_finish]
    exact ⟨_, .inl rfl⟩
  · have hport := (encodeDecodeRoundTrip _ p d i hdecode).2.1
    rw [hlane] at hnone hstream
    exact ⟨_, .inr ⟨i, hnone.symm, hport, State.nextCommand_of_decode hschedule hnone hstream hfatal hdecode,
      labelledStep_of_exec hexec⟩⟩

/-- Settles O55. -/
theorem agentsWriteOnlyTheirOwnState : Obligations.AgentsWriteOnlyTheirOwnState := by
  refine ⟨fun s t p c es hlanes hguards htransfers hschedule h => ?turn, fun s t off v es hinv hschedule h => ?window⟩
  case turn =>
    obtain ⟨l, rfl | ⟨i, hl, hport, hnext, hstep⟩⟩ := step_turn_cases hschedule hlanes h
    · refine ⟨fun _ o _ => ?_, ?_, ?_, ?_, ?_, .inl ?_⟩
      · simp [State.onTurn, State.ringByte]
      · rintro rfl; rfl
      · rintro rfl; rfl
      · rintro rfl; rfl
      · rintro rfl _; rfl
      · simp [State.onTurn]
    · have hout := outside_onTurn (c := c) (es := es) hl
      refine ⟨fun hp o ho => ?_, ?_, ?_, ?_, ?_, ?_⟩
      · subst hp
        exact hstep.ring_other hport (hout.keeps_transferInv htransfers) ho
      · rintro rfl
        exact hstep.producer_writes hport
      · rintro rfl
        exact hstep.consumer_writes hport
      · rintro rfl
        exact hstep.config_writes hport
      · rintro rfl hexcl
        exact hstep.config_writes_of_not_excl hport (hout.keeps_guardInv hguards) hexcl
      · rw [hnext]
        rcases hstep.host_cases with hsame | ⟨dst, src, n, q, rfl | rfl⟩ | ⟨dst, len, rfl⟩
        · exact .inl (hsame.trans (State.setLane_host ..))
        · exact .inr (.inl ⟨dst, src, n, by rw [← hport]; rfl⟩)
        · exact .inr (.inr (.inl ⟨dst, src, n, by rw [← hport]; rfl⟩))
        · exact .inr (.inr (.inr ⟨dst, len, hport.symm, rfl⟩))
  case window =>
    rcases step_next h with ⟨hnil, -⟩ | ⟨e, es', hschedule', hhandle⟩
    · rw [hschedule] at hnil; cases hnil
    cases hschedule.symm.trans hschedule'
    have hwrite : winWrite off v { s with schedule := es } = .next t := hhandle
    refine ⟨fun o ho => winWrite_ring_other hwrite hinv ho, ?_⟩
    obtain ⟨-, -, -, rfl⟩ := winWrite_cases hwrite
    rfl

end

end Sys2Proof.Machine
end

section
/-! PROOF. The ring as a queue (spec/42_ring.md R198): what is put behind WP and published is appended, what RP passes
is taken from the front, and the free area is not part of the contents. -/

namespace Sys2Proof.Machine

section
variable {s t : State} {i : Instr} {n : Nat}

/-! Bytes around the wrap. -/

theorem State.ringSeq_add (s : State) (off m n : Nat) :
    s.ringSeq off (m + n) = s.ringSeq off m ++ s.ringSeq (off + m) n := by
  simp only [State.ringSeq, List.range_add, List.map_append, List.map_map, Function.comp_def, Nat.add_assoc]

theorem State.ringSeq_mod (s : State) (off n : Nat) : s.ringSeq (off % s.size) n = s.ringSeq off n := by
  simp only [State.ringSeq, Nat.mod_add_mod]

theorem State.length_ringSeq (s : State) (off n : Nat) : (s.ringSeq off n).length = n := by simp [State.ringSeq]

theorem ringSeq_congr {off : Nat} (hsize : t.sizeLog2 = s.sizeLog2)
    (h : ∀ k < n, t.ringByte ((off + k) % s.size) = s.ringByte ((off + k) % s.size)) :
    t.ringSeq off n = s.ringSeq off n := by
  rw [State.ringSeq, State.size_eq_of_sizeLog2 hsize]
  exact List.map_congr_left fun k hk => h k (List.mem_range.1 hk)

/-- A sequence given byte by byte. -/
theorem ringSeq_eq_of_getD {off : Nat} {v : List Byte}
    (h : ∀ k < v.length, s.ringByte ((off + k) % s.size) = v.getD k 0) : s.ringSeq off v.length = v := by
  refine List.ext_getElem (s.length_ringSeq _ _) fun k hk hk' => ?_
  rw [← List.getD_eq_getElem v 0 hk', ← h k hk']
  simp [State.ringSeq]

/-! The contents and the free area. -/

/-- The occupied bytes end at WP. -/
theorem State.PositionsInv.rp_add_avail (h : s.PositionsInv) : (s.rp.toNat + s.avail.toNat) % s.size = s.wp.toNat := by
  have h32 := h.sizeLog2_le
  obtain ⟨-, -, hw, hr⟩ := h
  have havail := State.avail_eq h32 hw hr
  split at havail
  · rw [havail, Nat.add_sub_cancel' ‹_›, Nat.mod_eq_of_lt hw]
  · rw [havail, show s.rp.toNat + (s.size + s.wp.toNat - s.rp.toNat) = s.wp.toNat + s.size by omega,
      Nat.add_mod_right, Nat.mod_eq_of_lt hw]

/-- No occupied byte lies in the free area. -/
theorem State.PositionsInv.not_inRingRange_free (h : s.PositionsInv) {k : Nat} (hk : k < s.avail.toNat) :
    ¬ s.inRingRange s.wp.toNat s.free.toNat ((s.rp.toNat + k) % s.size) := by
  rintro ⟨j, hj, heq⟩
  have h32 := h.sizeLog2_le
  have hsum := State.avail_add_free h32
  obtain ⟨-, -, hw, hr⟩ := h
  have havail := State.avail_eq h32 hw hr
  rw [add_mod_of_lt hr (by omega), add_mod_of_lt hw (by omega)] at heq
  split at heq <;> split at heq <;> split at havail <;> omega

/-- Whatever is written into the free area, the contents are the same. -/
theorem State.PositionsInv.contents_eq (h : s.PositionsInv) (hsize : t.sizeLog2 = s.sizeLog2) (hwp : t.wp = s.wp)
    (hrp : t.rp = s.rp)
    (hold : ∀ o, ¬ s.inRingRange s.wp.toNat s.free.toNat o → t.ringByte o = s.ringByte o) :
    t.contents = s.contents := by
  have havail : t.avail = s.avail := by simp [State.avail, State.mask, State.size, hsize, hwp, hrp]
  rw [State.contents, State.contents, havail, hrp]
  exact ringSeq_congr hsize fun k hk => hold _ (h.not_inRingRange_free hk)

theorem contents_of_same (hsize : t.sizeLog2 = s.sizeLog2) (hwp : t.wp = s.wp) (hrp : t.rp = s.rp)
    (hbytes : ∀ o, t.ringByte o = s.ringByte o) : t.contents = s.contents := by
  have havail : t.avail = s.avail := by simp [State.avail, State.mask, State.size, hsize, hwp, hrp]
  rw [State.contents, State.contents, havail, hrp]
  exact ringSeq_congr hsize fun k _ => hbytes _

/-- Bytes put at WP and published are appended (R198 b). -/
theorem State.PositionsInv.contents_append (h : s.PositionsInv) {v : List Byte} (hsize : t.sizeLog2 = s.sizeLog2)
    (hrp : t.rp = s.rp) (hwp : t.wp = advancePos s.mask s.wp v.length) (hv : v.length ≤ s.free.toNat)
    (hnew : ∀ k < v.length, t.ringByte ((s.wp.toNat + k) % s.size) = v.getD k 0)
    (hold : ∀ o, ¬ s.inRingRange s.wp.toNat s.free.toNat o → t.ringByte o = s.ringByte o) :
    t.contents = s.contents ++ v := by
  have hsize' := State.size_eq_of_sizeLog2 hsize
  have havail := (h.advance_wp hsize hrp hwp hv).1
  have hend : t.ringSeq (s.rp.toNat + s.avail.toNat) v.length = v := by
    rw [← State.ringSeq_mod, hsize', h.rp_add_avail]
    exact ringSeq_eq_of_getD (by rwa [hsize'])
  rw [State.contents, hrp, havail, State.ringSeq_add, hend,
    ringSeq_congr hsize fun k hk => hold _ (h.not_inRingRange_free hk)]
  rfl

/-- Bytes RP moves past are taken from the front (R198 c). -/
theorem State.PositionsInv.contents_take (h : s.PositionsInv) (hsize : t.sizeLog2 = s.sizeLog2) (hwp : t.wp = s.wp)
    (hrp : t.rp = advancePos s.mask s.rp n) (hn : n ≤ s.avail.toNat) (hbytes : ∀ o, t.ringByte o = s.ringByte o) :
    s.contents = s.ringSeq s.rp.toNat n ++ t.contents := by
  obtain ⟨havail, -⟩ := h.advance_rp hsize hwp hrp hn
  have hrest : t.contents = s.ringSeq (s.rp.toNat + n) t.avail.toNat := by
    rw [State.contents, ringSeq_congr hsize fun k _ => hbytes _, hrp, State.advancePos_toNat h.sizeLog2_le,
      State.ringSeq_mod]
  rw [hrest, ← State.ringSeq_add, State.contents]
  congr 1
  omega

theorem State.PositionsInv.contents_drop (h : s.PositionsInv) (hsize : t.sizeLog2 = s.sizeLog2) (hwp : t.wp = s.wp)
    (hrp : t.rp = advancePos s.mask s.rp n) (hn : n ≤ s.avail.toNat) (hbytes : ∀ o, t.ringByte o = s.ringByte o) :
    t.contents = s.contents.drop n := by
  rw [h.contents_take hsize hwp hrp hn hbytes, List.drop_left' (s.length_ringSeq _ _)]

theorem contents_of_positions_eq (h : t.wp = t.rp) : t.contents = [] := by
  have havail : t.avail = 0 := by rw [State.avail, availAt, h, BitVec.sub_self]; exact BitVec.zero_and
  rw [State.contents, havail]
  rfl

/-! A labelled step, and a step of the machine. -/

/-- What a labelled step does to the queue. -/
theorem LabelledStep.contents_cases (h : LabelledStep s i t) (hinv : s.Inv) :
    t.contents = s.contents ∨
      (∃ v, t.contents = s.contents ++ v ∧ (IsPush i ∨ ∃ n, i = .wcommit n)) ∨
      (∃ v, s.contents = v ++ t.contents ∧ ((∃ dst len, i = .pop dst len) ∨ ∃ n, i = .radv n)) ∨
      (t.contents = [] ∧ (i = .clear ∨ ∃ c b, i = .resize c b)) := by
  have happend : ∀ {n : Nat}, t.sizeLog2 = s.sizeLog2 → t.rp = s.rp → t.wp = advancePos s.mask s.wp n →
      n ≤ s.free.toNat → (∀ o, t.ringByte o = s.ringByte o) →
      t.contents = s.contents ++ s.ringSeq s.wp.toNat n := fun {n} hsize hrp hwp hn hbytes => by
    have hlen := s.length_ringSeq s.wp.toNat n
    refine hinv.positions.contents_append hsize hrp (by rwa [hlen]) (by rwa [hlen]) (fun k hk => ?_)
      fun o _ => hbytes o
    rw [hbytes, State.ringSeq, getD_map_range (hlen ▸ hk)]
  have hother := fun hport (o : Nat) => h.ring_other hport hinv.transfers (o := o)
  cases h with
  | pushMove => exact .inl (hinv.positions.contents_eq (by simp) (by simp) (by simp) (hother rfl))
  | transfer hk => exact .inl (hinv.positions.contents_eq (by simp) (by simp) (by simp) (hother hk.port))
  | publish hpush hat =>
    obtain ⟨rfl, hfit, -⟩ := hinv.transfers.push hpush hat rfl
    exact .inr (.inl ⟨_, happend rfl rfl rfl hfit fun _ => rfl, .inl hpush⟩)
  | wcommit hfree hphase hregion hlen =>
    obtain ⟨-, -, hgrant, -⟩ := hinv.regions
    obtain ⟨hbase, hin, -⟩ := hgrant _ hregion
    exact .inr (.inl ⟨_, happend rfl rfl (hbase ▸ rfl) (hlen.trans hin) fun _ => rfl, .inr ⟨_, rfl⟩⟩)
  | popPublish hat =>
    obtain ⟨rfl, hfit, -⟩ := hinv.transfers.pop hat rfl
    exact .inr (.inr (.inl ⟨_, hinv.positions.contents_take rfl rfl rfl hfit fun _ => rfl, .inl ⟨_, _, rfl⟩⟩))
  | radv hfree hphase hregion hlen =>
    obtain ⟨-, -, -, hgrant, -⟩ := hinv.regions
    obtain ⟨hbase, hin, -⟩ := hgrant _ hregion
    exact .inr (.inr (.inl ⟨_, hinv.positions.contents_take rfl rfl (hbase ▸ rfl) (hlen.trans hin) fun _ => rfl,
      .inr ⟨_, rfl⟩⟩))
  | resize => exact .inr (.inr (.inr ⟨contents_of_positions_eq rfl, .inr ⟨_, _, rfl⟩⟩))
  | clear => exact .inr (.inr (.inr ⟨contents_of_positions_eq rfl, .inl rfl⟩))
  | _ => exact .inl (contents_of_same (by simp) (by simp) (by simp) (by simp [State.ringByte]))

theorem Outside.contents_eq (h : Outside s t) : t.contents = s.contents := by
  rw [h.frame]
  rfl

/-- Settles O30: a step that is not the block's changes no byte of the queue; the labelled steps change it as they say. -/
theorem ringIsQueue : Obligations.RingIsQueue := by
  intro s t hinv h
  rcases step_cases h with ho | ⟨s₀, i, ho, hnext, -, hstep⟩ | ⟨s₀, off, v, ho, hw⟩ | ⟨hreset, s₀, landed, -, rfl⟩
  · exact .inl ho.contents_eq
  · rw [hnext, ← ho.contents_eq]
    rcases hstep.contents_cases (ho.keeps_inv hinv) with hsame | ⟨v, happend, hcmd⟩ | ⟨v, htake, hcmd⟩ | ⟨hnil, hcmd⟩
    · exact .inl hsame
    · refine .inr (.inl ⟨v, happend, ?_⟩)
      rcases hcmd with hpush | ⟨n, rfl⟩
      · cases hpush with
        | push src len => exact .inl ⟨src, len, rfl⟩
        | converting hk =>
          cases hk with
          | push24 src len => exact .inr (.inr (.inl ⟨src, len, rfl⟩))
          | push16 src len => exact .inr (.inr (.inr (.inl ⟨src, len, rfl⟩)))
          | pushdsd src len channels rev swap => exact .inr (.inr (.inr (.inr ⟨src, len, channels, rev, swap, rfl⟩)))
      · exact .inr (.inl ⟨n, rfl⟩)
    · refine .inr (.inr (.inl ⟨v, htake, ?_⟩))
      rcases hcmd with ⟨dst, len, rfl⟩ | ⟨n, rfl⟩
      · exact .inl ⟨dst, len, rfl⟩
      · exact .inr ⟨n, rfl⟩
    · refine .inr (.inr (.inr ⟨hnil, ?_⟩))
      rcases hcmd with rfl | ⟨c, b, rfl⟩
      · exact .inr (.inl rfl)
      · exact .inr (.inr ⟨c, b, rfl⟩)
  · have hinv₀ := ho.keeps_inv hinv
    have hother := fun (o : Nat) => winWrite_ring_other hw hinv₀.regions (o := o)
    obtain ⟨-, -, -, rfl⟩ := winWrite_cases hw
    rw [← ho.contents_eq]
    exact .inl (hinv₀.positions.contents_eq rfl rfl rfl hother)
  · exact .inr (.inr (.inr ⟨contents_of_positions_eq rfl, .inl hreset⟩))

end

end Sys2Proof.Machine
end

section
/-! PROOF. The ring's commands run to their end (spec/42_ring.md R184 to R194; spec/43_convert_push.md R220): what a
push appends and what a pop delivers. -/

namespace Sys2Proof.Machine

section
variable {s t : State}

/-- A command's own steps change neither the parameters nor what is in flight on the other ports, so they meet the same
HOST conditions. -/
theorem State.hostRefusal_goTo (s : State) (i : Instr) (st : Stage) (reads writes : List HostRange) :
    (s.goTo i st).hostRefusal i.port reads writes = s.hostRefusal i.port reads writes :=
  State.hostRefusal_congr _ _ _ _ _ (State.goTo_cfg ..) fun q hq => by rw [State.goTo_lane_other s i st q hq]

/-- The free and the occupied bytes are fewer than the slots. -/
theorem State.PositionsInv.lt_size (h : s.PositionsInv) : s.free.toNat < s.size ∧ s.avail.toNat < s.size := by
  have hsum := State.avail_add_free h.sizeLog2_le
  have hsize := s.size_pos
  omega

/-! PUSH and POP. -/

/-- PUSH from its first step to its last. -/
theorem exec_push_run {src len : Word} {n : Nat} (hpos : s.PositionsInv) (hfree : s.portFree .producer)
    (hphase : s.phaseP = .guarded) (hcount : min len.toNat s.free.toNat = n) (hn : 0 < n)
    (hhost : s.hostRefusal .producer [rangeAt src n] [] = none) :
    ∃ s1 s2 t, exec (.push src len) s = .next s1 ∧ exec (.push src len) s1 = .next s2 ∧
      exec (.push src len) s2 = .next t ∧ t.contents = s.contents ++ s.memReadHost src.toNat n ∧
      t.laneP = ⟨s.laneP.stream, none, some ⟨.done, BitVec.ofNat 32 n, 0⟩⟩ := by
  have hfit : n ≤ s.free.toNat := hcount.ge.trans (Nat.min_le_right ..)
  have hstart : exec (.push src len) s = .next (s.goTo (.push src len) (.move s.wp n)) := by
    rw [exec_push_of_portFree hfree hphase, hcount, if_neg hn.ne']
  set s1 := s.goTo (.push src len) (.move s.wp n)
  obtain ⟨u, hput, hframe, hbytes, hother⟩ := s1.ringPut_memReadHost (pos := s.wp) (n := n) src.toNat hpos.2.2.1
    (hfit.trans_lt hpos.lt_size.1)
  obtain ⟨m, rfl⟩ : ∃ m, u = { s1 with ring := m } := ⟨_, hframe⟩
  have hlen := s.memReadHost_length src.toNat n
  refine ⟨s1, _, _, hstart, exec_push_of_move State.atStage_goTo ?_ hput, exec_push_of_publish State.atStage_goTo, ?_,
    rfl⟩
  · exact (s.hostRefusal_goTo (.push src len) _ _ _).trans hhost
  · refine hpos.contents_append rfl rfl (by simp [hlen, s1, State.mask, State.size]) (by rwa [hlen]) (fun k hk => ?_)
      fun o ho => ?_
    · rw [hlen] at hk
      rw [s.memReadHost_getD hk]
      exact hbytes k hk
    · exact hother o fun hin => ho (hin.mono hfit)

/-- POP from its first step to its last. -/
theorem exec_pop_run {dst len : Word} {n : Nat} (hpos : s.PositionsInv) (hfree : s.portFree .consumer)
    (hphase : s.phaseC = .guarded) (hcount : min len.toNat s.avail.toNat = n) (hn : 0 < n)
    (hhost : s.hostRefusal .consumer [] [rangeAt dst n] = none) :
    ∃ s1 s2 t, exec (.pop dst len) s = .next s1 ∧ exec (.pop dst len) s1 = .next s2 ∧
      exec (.pop dst len) s2 = .next t ∧ t.contents = s.contents.drop n ∧
      (∀ k < n, t.hostByte (dst.toNat + k) = s.contents.getD k 0) ∧
      t.laneC = ⟨s.laneC.stream, none, some ⟨.done, BitVec.ofNat 32 n, 0⟩⟩ := by
  have hfit : n ≤ s.avail.toNat := hcount.ge.trans (Nat.min_le_right ..)
  have hstart : exec (.pop dst len) s = .next (s.goTo (.pop dst len) (.move s.rp n)) := by
    rw [exec_pop_of_portFree hfree hphase, hcount, if_neg hn.ne']
  set s1 := s.goTo (.pop dst len) (.move s.rp n)
  have hget := s1.ringGet_bytes s.rp n hpos.2.2.2 (hfit.trans hpos.lt_size.2.le)
  obtain ⟨hbytes, -⟩ := s1.memWriteHost_ringBytes dst.toNat s.rp.toNat n
  refine ⟨s1, _, _, hstart, exec_pop_of_move State.atStage_goTo ?_ hget, exec_pop_of_publish State.atStage_goTo, ?_,
    fun k hk => ?_, rfl⟩
  · exact (s.hostRefusal_goTo (.pop dst len) _ _ _).trans hhost
  · exact hpos.contents_drop rfl rfl rfl hfit fun _ => by simp [State.ringByte, s1]
  · refine (hbytes k hk).trans ?_
    rw [State.contents, State.ringSeq, getD_map_range (hk.trans_le hfit)]
    rfl

/-! The zero-copy pairs. -/

/-- WCOMMIT of written bytes of the open region. -/
theorem exec_wcommit_run {written : Word} {g : Region} (hpos : s.PositionsInv) (hregions : s.RegionInv)
    (hfree : s.portFree .producer) (hphase : s.phaseP = .region) (hregion : s.wregion = some g)
    (hlen : written.toNat ≤ g.len) (hwritten : ∀ k < written.toNat, g.base.toNat + k ∈ s.winWritten) :
    ∃ t, exec (.wcommit written) s = .next t ∧
      t.contents = s.contents ++ s.ringSeq g.base.toNat written.toNat ∧
      t.laneP = ⟨s.laneP.stream, none, some ⟨.done, 0, 0⟩⟩ := by
  obtain ⟨-, -, hgrant, -⟩ := hregions
  obtain ⟨hbase, hin, -⟩ := hgrant g hregion
  have hseq := s.length_ringSeq g.base.toNat written.toNat
  refine ⟨_, exec_wcommit_of_written hfree hphase hregion hlen hwritten, ?_, rfl⟩
  refine hpos.contents_append rfl rfl (by rw [hseq, ← hbase]; rfl) (by omega) (fun k hk => ?_) fun _ _ => rfl
  rw [State.ringSeq, getD_map_range (hseq ▸ hk), hbase]
  rfl

/-- RADV of bytes of the open region. -/
theorem exec_radv_run {bytes : Word} {g : Region} (hpos : s.PositionsInv) (hregions : s.RegionInv)
    (hfree : s.portFree .consumer) (hphase : s.phaseC = .region) (hregion : s.rregion = some g)
    (hlen : bytes.toNat ≤ g.len) :
    ∃ t, exec (.radv bytes) s = .next t ∧ t.contents = s.contents.drop bytes.toNat ∧
      t.laneC = ⟨s.laneC.stream, none, some ⟨.done, 0, 0⟩⟩ := by
  obtain ⟨-, -, -, hgrant, -⟩ := hregions
  obtain ⟨hbase, hin, -⟩ := hgrant g hregion
  refine ⟨_, (exec_radv_of_region hfree hphase hregion).trans (if_pos hlen), ?_, rfl⟩
  exact hpos.contents_drop rfl rfl (by rw [← hbase]; rfl) (hlen.trans hin) fun _ => rfl

/-- The answer of WRGN and RRGN with enough contiguous bytes. -/
theorem exec_wrgn_of_enough {needed : Word} (hfree : s.portFree .producer) (hphase : s.phaseP = .guarded)
    (hneeded : needed.toNat ≤ s.contiguousFree) : exec (.wrgn needed) s =
      .next ({ s with wregion := some ⟨s.wp, s.contiguousFree⟩, winWritten := [], phaseP := .region }.finish
        .producer (done s.wp (BitVec.ofNat 32 s.contiguousFree))) := by
  rw [exec_wrgn_of_portFree hfree hphase, if_neg hneeded.not_gt]

theorem exec_rrgn_of_enough {needed : Word} (hfree : s.portFree .consumer) (hphase : s.phaseC = .guarded)
    (hneeded : needed.toNat ≤ s.contiguousAvail) : exec (.rrgn needed) s =
      .next ({ s with rregion := some ⟨s.rp, s.contiguousAvail⟩, phaseC := .region }.finish .consumer
        (done s.rp (BitVec.ofNat 32 s.contiguousAvail))) := by
  rw [exec_rrgn_of_portFree hfree hphase, if_neg hneeded.not_gt]

theorem State.PositionsInv.contiguous_le (h : s.PositionsInv) :
    (s.contiguousFree ≤ s.free.toNat ∧ s.wp.toNat + s.contiguousFree ≤ s.size) ∧
      (s.contiguousAvail ≤ s.avail.toNat ∧ s.rp.toNat + s.contiguousAvail ≤ s.size) := by
  obtain ⟨-, -, hw, hr⟩ := h
  simp only [State.contiguousFree, State.contiguousAvail]
  omega

/-- WRGN, a window write at the position, and WCOMMIT of its length. -/
theorem exec_write_region_run {needed : Word} {v : List Byte} (hpos : s.PositionsInv) (hfree : s.portFree .producer)
    (hphase : s.phaseP = .guarded) (hneeded : needed.toNat ≤ s.contiguousFree) (hv : v.length ≤ s.contiguousFree) :
    ∃ s1 s2 t, exec (.wrgn needed) s = .next s1 ∧ winWrite s.wp v s1 = .next s2 ∧
      exec (.wcommit (BitVec.ofNat 32 v.length)) s2 = .next t ∧ t.contents = s.contents ++ v := by
  obtain ⟨⟨hle, hend⟩, -⟩ := hpos.contiguous_le
  have hlen : (BitVec.ofNat 32 v.length).toNat = v.length := by
    have := s.free.isLt
    rw [BitVec.toNat_ofNat, Nat.mod_eq_of_lt (by omega)]
  have hwrgn := exec_wrgn_of_enough hfree hphase hneeded
  set s1 := { s with wregion := some ⟨s.wp, s.contiguousFree⟩, winWritten := [], phaseP := .region }.finish .producer
    (done s.wp (BitVec.ofNat 32 s.contiguousFree))
  obtain ⟨u, hwrite, hframe, hbytes, hother⟩ :=
    winWrite_of_inside (s := s1) (off := s.wp) (v := v) (g := ⟨s.wp, s.contiguousFree⟩) rfl rfl le_rfl
      (Nat.add_le_add_left hv _) hend
  have hrecord := mem_winWritten_of_winWrite hwrite
  obtain ⟨m, l, rfl⟩ : ∃ m l, u = { s1 with ring := m, winWritten := l } := ⟨_, _, hframe⟩
  refine ⟨s1, _, _, hwrgn, hwrite, exec_wcommit_of_written rfl rfl rfl (hlen.trans_le hv) fun k hk => ?_, ?_⟩
  · rw [hlen] at hk
    exact (hrecord _).2 (.inr ⟨Nat.le_add_right _ _, Nat.add_lt_add_left hk _⟩)
  · refine hpos.contents_append rfl rfl (by rw [hlen]; rfl) (hv.trans hle) (fun k hk => ?_) fun o ho => ?_
    · rw [Nat.mod_eq_of_lt (by omega)]
      exact hbytes k hk
    · refine hother o ?_
      by_contra hin
      refine ho ⟨o - s.wp.toNat, by omega, ?_⟩
      rw [Nat.mod_eq_of_lt (by omega)]
      omega

/-- RRGN, a window read at the position, and RADV of as many bytes. -/
theorem exec_read_region_run {needed n : Word} (hpos : s.PositionsInv) (hfree : s.portFree .consumer)
    (hphase : s.phaseC = .guarded) (hneeded : needed.toNat ≤ s.contiguousAvail) (hn : n.toNat ≤ s.contiguousAvail) :
    ∃ s1 s2 t, exec (.rrgn needed) s = .next s1 ∧ winRead s.rp n s1 = .next s2 ∧
      s2.window = s.contents.take n.toNat ∧ exec (.radv n) s2 = .next t ∧ t.contents = s.contents.drop n.toNat := by
  obtain ⟨-, hle, hend⟩ := hpos.contiguous_le
  have hrrgn := exec_rrgn_of_enough hfree hphase hneeded
  set s1 := { s with rregion := some ⟨s.rp, s.contiguousAvail⟩, phaseC := .region }.finish .consumer
    (done s.rp (BitVec.ofNat 32 s.contiguousAvail))
  have hread := winRead_of_inside (s := s1) (off := s.rp) (n := n) (g := ⟨s.rp, s.contiguousAvail⟩) rfl rfl le_rfl
    (Nat.add_le_add_left hn _) hend
  have hwindow : (List.range n.toNat).map (fun k => s1.ringByte (s.rp.toNat + k)) = s.ringSeq s.rp.toNat n.toNat := by
    refine List.map_congr_left fun k hk => ?_
    have hk' := List.mem_range.1 hk
    rw [Nat.mod_eq_of_lt (by omega)]
    rfl
  rw [hwindow] at hread
  set s2 := { s1 with window := s.ringSeq s.rp.toNat n.toNat }
  have hradv := (exec_radv_of_region (s := s2) (bytes := n) (g := ⟨s.rp, s.contiguousAvail⟩) rfl rfl rfl).trans
    (if_pos hn)
  refine ⟨s1, s2, _, hrrgn, hread, ?_, hradv, ?_⟩
  · have htake := hpos.contents_take (t := { s with rp := advancePos s.mask s.rp n.toNat }) rfl rfl rfl
      (hn.trans hle) fun _ => rfl
    rw [htake, List.take_left' (s.length_ringSeq _ _)]
  · exact hpos.contents_drop rfl rfl rfl (hn.trans hle) fun _ => rfl

/-- Settles O29. -/
theorem pushAppendsPopTakes : Obligations.PushAppendsPopTakes := by
  refine ⟨fun src len s hpos hfree hphase hn hhost => ?_,
    fun dst len s hpos hfree hphase hn hhost => exec_pop_run hpos hfree hphase rfl hn hhost,
    fun written s g hpos hregions hfree hphase hregion hlen hwritten =>
      exec_wcommit_run hpos hregions hfree hphase hregion hlen hwritten,
    fun bytes s g hpos hregions hfree hphase hregion hlen => exec_radv_run hpos hregions hfree hphase hregion hlen,
    fun needed v s hpos hfree hphase hneeded hv => exec_write_region_run hpos hfree hphase hneeded hv,
    fun needed n s hpos hfree hphase hneeded hn => exec_read_region_run hpos hfree hphase hneeded hn⟩
  rw [← State.memReadHost_eq_map]
  exact exec_push_run hpos hfree hphase rfl hn hhost

/-! The converting pushes. -/

/-- A command's own step leaves every stream. -/
theorem State.goTo_stream (s : State) (i : Instr) (st : Stage) (q : Port) :
    ((s.goTo i st).lane q).stream = (s.lane q).stream := by
  by_cases hq : q = i.port
  · rw [hq, State.goTo, State.setLane_lane_same]
  · rw [State.goTo_lane_other s i st q hq]

/-- What the conversion step of a converting push leaves of the ring and of P's stream. -/
theorem IsConverting.ring_after_move {k : Converting} (hk : IsConverting k) {n : Nat} {w : Word} {m : Memory}
    (ht : t = ((k.convert n s).1.setStg k.buf m).goTo k.instr (.transfer w n)) :
    t.sizeLog2 = s.sizeLog2 ∧ t.rp = s.rp ∧ (∀ o, t.ringByte o = s.ringByte o) ∧
      t.s24Mode = (k.convert n s).1.s24Mode ∧ t.laneP.stream = s.laneP.stream := by
  have hstream : t.laneP.stream = ((k.convert n s).1.lane .producer).stream := by
    rw [← State.setStg_lane _ k.buf m, ← State.goTo_stream, ← ht]
    rfl
  rw [hstream, ht, (hk.frame n s).eq]
  simp [State.ringByte, State.lane]

/-- A converting push from its first step to its last: what is appended is the conversion of the state the first step
leaves, and the S24 mode is the one the conversion leaves. -/
theorem convertPush_run {k : Converting} {n : Nat} (hk : IsConverting k) (hpos : s.PositionsInv)
    (hfree : s.portFree .producer) (hphase : s.phaseP = .guarded)
    (hbound : bound k.len.toNat k.uin k.uout s.free.toNat = n) (hn : 0 < n)
    (hhost : s.hostRefusal .producer (k.reads n) [] = none) :
    ∃ s1 s2 s3 t, convertPush k s = .next s1 ∧ convertPush k s1 = .next s2 ∧ convertPush k s2 = .next s3 ∧
      convertPush k s3 = .next t ∧ s1 = s.goTo k.instr (.move s.wp n) ∧
      t.s24Mode = (k.convert n s1).1.s24Mode ∧ t.contents = s.contents ++ (k.convert n s1).2 ∧
      t.laneP = ⟨s.laneP.stream, none, some ⟨.done, BitVec.ofNat 32 (k.uin * n), 0⟩⟩ := by
  obtain ⟨-, -, -, hstg, hfit⟩ := bound_fits hbound hn
  have hstart := convertPush_of_bound_eq hk.port hfree hphase hbound hn
  set s1 := s.goTo k.instr (.move s.wp n)
  have hlen := hk.length_convert n s1
  have hhost1 : s1.hostRefusal .producer (k.reads n) [] = none := by
    rw [← hk.port]
    exact (s.hostRefusal_goTo k.instr _ _ _).trans (by rwa [hk.port])
  obtain ⟨s2, hmove, hframe2, hstaged, -⟩ :=
    convertPush_of_move (k := k) (State.atStage_goTo) hhost1 rfl (hlen.trans_le hstg)
  obtain ⟨hlog2, hrp2, hbytes2, hmode2, hstream2⟩ := hk.ring_after_move hframe2
  have hstream1 : s1.laneP.stream = s.laneP.stream := s.goTo_stream k.instr _ .producer
  simp only [State.goTo_sizeLog2, State.goTo_rp, State.goTo_ringByte] at hlog2 hrp2 hbytes2
  have hsize2 := State.size_eq_of_sizeLog2 hlog2
  have hat2 : s2.atStage k.instr (.transfer s.wp n) := hframe2 ▸ State.atStage_goTo
  obtain ⟨s3, htransfer, hframe3, hbytes3, hother3⟩ := convertPush_of_transfer hat2 hstg
    (by rw [hsize2]; exact hpos.2.2.1) (by rw [hsize2]; exact hfit.trans_lt hpos.lt_size.1)
  rw [hsize2] at hbytes3
  have hat3 : s3.atStage k.instr (.publish s.wp n) := hframe3 ▸ State.atStage_goTo
  have hlog3 : s3.sizeLog2 = s.sizeLog2 := by rw [hframe3]; simpa using hlog2
  have hrp3 : s3.rp = s.rp := by rw [hframe3]; simpa using hrp2
  have hmode3 : s3.s24Mode = s2.s24Mode := by rw [hframe3]; simp
  have hstream3 : s3.laneP.stream = s2.laneP.stream := by
    rw [hframe3]
    exact State.goTo_stream _ k.instr _ .producer
  have hmask3 : s3.mask = s.mask := by rw [State.mask, State.mask, State.size_eq_of_sizeLog2 hlog3]
  refine ⟨s1, s2, s3, _, hstart, hmove, htransfer, convertPush_of_publish hat3, rfl, hmode3.trans hmode2, ?_, ?_⟩
  · refine hpos.contents_append hlog3 hrp3 (by rw [hlen, ← hmask3]; rfl) (hlen.trans_le hfit) (fun j hj => ?_)
      fun o ho => ?_
    · exact (hbytes3 j (hlen ▸ hj)).trans (hstaged j hj)
    · refine (hother3 o fun hin => ho ?_).trans (hbytes2 o)
      rw [State.inRingRange, hsize2] at hin
      exact State.inRingRange.mono (s := s) hin hfit
  · rw [← hstream1, ← hstream2, ← hstream3]
    rfl

/-- The blocks PUSHDSD reads, channel by channel. -/
theorem planarBlocks_eq (src len : Word) (channels : Byte) (g : Nat) (s : State) : planarBlocks src len channels g s =
    (List.range channels.toNat).map
      (fun c => s.memReadHost (src.toNat + c * (len.toNat / channels.toNat)) (4 * g)) := by
  rw [planarBlocks, planarRanges, List.map_map]
  rfl

/-- Settles O35: the shared run with each command's conversion, which reads HOST bytes the first step leaves. -/
theorem convertingPushesAppend : Obligations.ConvertingPushesAppend := by
  refine ⟨fun src len s hpos hfree hphase hn hhost => ?_, fun src len s hpos hfree hphase hn hhost => ?_,
    fun src len ch rev swap s hpos hfree hphase hch hg hhost => ?_⟩
  · obtain ⟨s1, s2, s3, t, h1, h2, h3, h4, rfl, hmode, hcontents, hlane⟩ :=
      convertPush_run (.push24 src len) hpos hfree hphase rfl hn hhost
    refine ⟨_, s2, s3, t, h1, h2, h3, h4, ?_, hlane⟩
    rw [hmode]
    exact hcontents
  · obtain ⟨s1, s2, s3, t, h1, h2, h3, h4, rfl, -, hcontents, hlane⟩ :=
      convertPush_run (.push16 src len) hpos hfree hphase rfl hn hhost
    exact ⟨_, s2, s3, t, h1, h2, h3, h4, hcontents, hlane⟩
  · obtain ⟨s1, s2, s3, t, h1, h2, h3, h4, rfl, -, hcontents, hlane⟩ :=
      convertPush_run (.pushdsd src len ch rev swap) hpos hfree hphase rfl hg hhost
    refine ⟨_, s2, s3, t, h1, h2, h3, h4, ?_, hlane⟩
    rw [hcontents, ← planarBlocks_eq]
    rfl

end

end Sys2Proof.Machine
end
